-- ==== Sys2Proof/Word.lean ====
section
/-! DEFINITION. The word types of the block (spec/00_scope.md section 5.1). -/

namespace Sys2Proof

/-- A byte, the u8 of 00 section 5.1: what the decoder consumes and every frame field is made of. -/
abbrev Byte := BitVec 8

/-- A 16-bit word, the u16 of 00 section 5.1. -/
abbrev Word16 := BitVec 16

/-- A 32-bit pattern, the w32 of 00 section 5.1; a float is carried as one (43 R172). -/
abbrev Word32 := BitVec 32

end Sys2Proof
end

