-- ==== Sys2Proof/Machine/Constants.lean ====
section
/-! DEFINITION. The constants of 00 R3, each under a name of its own, which every rule uses. -/

namespace Sys2Proof

/-- HEADER0 (00 R3). -/
def header0 : Byte := 0x55
/-- HEADER1 (00 R3). -/
def header1 : Byte := 0xAA
/-- MAX_RX_LEN: the largest `length` the decoder accepts (00 R3); the remaining count, the payload buffer and the longest
frame are sized by it. -/
abbrev maxRxLen : Nat := 64
/-- MAX_TX_LEN: the largest payload the serializer accepts (00 R3). -/
def maxTxLen : Nat := 63
/-- BROADCAST: the wildcard of the response source check (00 R3). -/
def broadcast : Byte := 0xFF
/-- ERR_FLAG: bit 7 of the command byte (00 R3). -/
def errFlagBit : Nat := 7
/-- CMD_MASK: the low 7 bits of the command byte (00 R3). -/
def cmdMask : Byte := 0x7F
/-- CMD_CUSTOM: the generic batched custom command (00 R3). -/
def customOp : BitVec 7 := 0x5F
/-- GET_RANGE, its bounds (00 R3). -/
def getMin : Nat := 0x00
/-- GET_RANGE, its bounds (00 R3). -/
def getMax : Nat := 0x25
/-- SET_RANGE, its bounds (00 R3). -/
def setMin : Nat := 0x40
/-- SET_RANGE, its bounds (00 R3). -/
def setMax : Nat := 0x65
/-- Cells of the payload capture buffer: one for each payload byte of the largest frame (10 R25). -/
abbrev payCells : Nat := maxRxLen
/-- CAPTURE_BYTES: the capture store in the arena view (00 R3, 10 R27). -/
def captureBytes : Nat := 69
/-- MAX_MOTORS (00 R3): recorded, and enforced by no operation (44 R189, N14). -/
def maxMotors : Nat := 6

end Sys2Proof
end

