-- ==== Sys2Proof/Types.lean ====
section
/-! DEFINITION. The named alternatives of the spec that instructions, results and the state are made of: decoder
phases (10 R21), readings of a 16-bit field (43 R176), payload layouts (30 R78), command classes (30 R74), errors
(60 R241) and the places bytes are decoded at (30 R93). -/

namespace Sys2Proof

/-- The eight tags of the decoder's phase register, its program counter, in the order of 10 R21 and R36. The payload
tag carries the remaining count: `left` payload bytes are still to come AFTER the one awaited, so `rem = left + 1` runs
from 1 to MAX_RX_LEN and AwaitPayload(0) cannot be written (10 R22; log 18). -/
inductive Phase where
  | awaitHeader0
  | awaitHeader1
  | awaitDestAddr
  | awaitSrcAddr
  | awaitCommand
  | awaitLength
  | awaitPayload (left : Fin maxRxLen)
  | awaitChecksum
  deriving DecidableEq, Repr

/-- What besides the byte selects a transition (40 R100): the ready flag, the phase, and whether the captured
destination equals MASTER_ADDR. -/
structure Selector where
  ready : Bool
  phase : Phase
  toMaster : Bool
  deriving DecidableEq, Repr

/-- How a 16-bit field is read, which the layout's quantity says and the wire does not (43 R176, 44 R186). -/
inductive Reading where
  | unsigned
  | signed
  deriving DecidableEq, Repr

/-- The request of a typed operation: which layout packs its payload, with the operands (30 R78, 45 R230). -/
inductive Request where
  /-- RAW (44 R185). -/
  | raw (payload : List Byte)
  /-- PID_BLOCK (44 R187). -/
  | pid (pTerm iTerm dTerm gTerm : Word32)
  /-- ALL_SET (44 R189): one (value, speed) pair per motor. -/
  | allSet (reading : Reading) (motors : List (Int × Byte))
  /-- CUSTOM_REQ (44 R197). -/
  | custom (mask : Byte) (n : Nat) (speed position : List Word16) (angle : List Int)
  deriving DecidableEq, Repr

/-- The response of a typed operation: which layout unpacks its payload, with the host's array sizes (30 R78, 45 R230). -/
inductive Response where
  /-- RAW (44 R185). -/
  | raw
  /-- PID_BLOCK at an offset (44 R188). -/
  | pid (offset : Nat)
  /-- ALL_GET (44 R190 to R192). -/
  | allGet (reading : Reading) (capMotors : Nat)
  /-- CALI (44 R193 to R195). -/
  | cali (capMotors capThumb : Nat)
  /-- CUSTOM_RSP (44 R200 to R204), parsed with the mask that was sent. -/
  | custom (mask : Byte) (capMotors : Nat)
  deriving DecidableEq, Repr

/-- The class of a command byte (30 R74, R76, R81); `op` is its low seven bits. -/
inductive CmdClass where
  | errFlag (op : BitVec 7)
  | custom
  | get (op : BitVec 7)
  | set (op : BitVec 7)
  | unassigned (op : BitVec 7)
  deriving DecidableEq, Repr

/-- What the class of a command byte says of the payload that goes with it. -/
inductive PayloadRule where
  /-- A remote error code stands at offset 1 (30 R76, 41 R133). -/
  | errorCode
  /-- CUSTOM_REQ and CUSTOM_RSP (30 R74). -/
  | customFormats
  /-- Which format an individual code carries is not named (30 R75). -/
  | anyFormat
  /-- No format may be attached: RAW (30 R81). -/
  | rawOnly
  deriving DecidableEq, Repr

/-- The names of the twelve errors (60 R241), in its order. -/
inductive ErrName where
  | invalidContext
  | timerNotConfigured
  | payloadTooLarge
  | transportFailure
  | timeout
  | badChecksum
  | remoteError
  | unmatchedAddress
  | unmatchedCommand
  | bufferTooSmall
  | dataInvalid
  | dataTooLarge
  deriving DecidableEq, Repr

/-- The twelve errors with what they carry (60 R241): only RemoteError carries anything, a code passed on untouched
(60 R243). -/
inductive Err where
  | invalidContext
  | timerNotConfigured
  | payloadTooLarge
  | transportFailure
  | timeout
  | badChecksum
  | remoteError (code : Byte)
  | unmatchedAddress
  | unmatchedCommand
  | bufferTooSmall
  | dataInvalid
  | dataTooLarge
  deriving DecidableEq, Repr

/-- The success value of an operation: what `return Ok(v)` delivers (00 section 5.2). -/
inductive Value where
  /-- A bare `Ok` (42 R150). -/
  | unit
  /-- A byte sequence: a payload, a packed field, a frame. -/
  | bytes (payload : List Byte)
  /-- An unsigned integer (43 R166, R168). -/
  | nat (v : Nat)
  /-- A signed integer (43 R170). -/
  | int (v : Int)
  /-- A 32-bit pattern (43 R172). -/
  | word32 (w : Word32)
  /-- The four patterns of a PID block (44 R188). -/
  | pid (pTerm iTerm dTerm gTerm : Word32)
  /-- The two arrays of an all-motors get (44 R192). -/
  | allGet (n : Nat) (target current : List Int)
  /-- The counts and arrays of a calibration response (44 R195). -/
  | cali (mc tc : Nat) (endPos startPos thumbRootPos : List Nat)
  /-- The arrays of the active get bits of a custom response; an inactive field has no array (44 R204). -/
  | custom (n : Nat) (position : Option (List Nat)) (angle : Option (List Int))
      (current force status : Option (List Nat))
  /-- The class of a command byte and what it says of the payload (30 R74; log 4). -/
  | command (cls : CmdClass) (payload : PayloadRule)
  deriving DecidableEq, Repr

/-- The result value of an operation: success or one of the twelve errors (60 R240). -/
inductive Result where
  | ok (v : Value)
  | err (e : Err)
  deriving DecidableEq, Repr

/-- Where bytes are decoded: at the decoder's byte input, as a whole frame, or as a command byte (30 R93; log 2). -/
inductive Port where
  | byte (sel : Selector)
  | frame
  | command
  deriving DecidableEq, Repr

/-- The name of an error, without what it carries. -/
def Err.name : Err → ErrName
  | .invalidContext => .invalidContext
  | .timerNotConfigured => .timerNotConfigured
  | .payloadTooLarge => .payloadTooLarge
  | .transportFailure => .transportFailure
  | .timeout => .timeout
  | .badChecksum => .badChecksum
  | .remoteError _ => .remoteError
  | .unmatchedAddress => .unmatchedAddress
  | .unmatchedCommand => .unmatchedCommand
  | .bufferTooSmall => .bufferTooSmall
  | .dataInvalid => .dataInvalid
  | .dataTooLarge => .dataTooLarge

end Sys2Proof
end

