-- ==== Sys2Proof/Machine/Params.lean ====
section
/-! DEFINITION. The bits of the custom bitmask, the ranges of operands and the classes of command bytes (43 R175, 44 R196
to R198, 30 R74, R81). -/

namespace Sys2Proof

/-- The bit numbers of the custom bitmask, from bit 0 upward in the source's order (44 R196, D16; log 24). -/
def bitSetSpeed : Nat := 0
/-- See bitSetSpeed. -/
def bitSetPosition : Nat := 1
/-- See bitSetSpeed. -/
def bitSetAngle : Nat := 2
/-- See bitSetSpeed. -/
def bitGetPosition : Nat := 3
/-- See bitSetSpeed. -/
def bitGetAngle : Nat := 4
/-- See bitSetSpeed. -/
def bitGetCurrent : Nat := 5
/-- See bitSetSpeed. -/
def bitGetForce : Nat := 6
/-- See bitSetSpeed. -/
def bitGetStatus : Nat := 7

/-- The range of a 16-bit value under each reading: 0 to 65535 unsigned, -32768 to 32767 signed (43 R167, R169). -/
def inRange16 : Reading → Int → Bool
  | .unsigned, v => decide (0 ≤ v ∧ v ≤ 65535)
  | .signed, v => decide (-32768 ≤ v ∧ v ≤ 32767)

/-- An operation code of the GET family (30 R74). -/
def inGetRange (op : BitVec 7) : Bool := decide (getMin ≤ op.toNat ∧ op.toNat ≤ getMax)

/-- An operation code of the SET family, the custom code excepted (30 R74). -/
def inSetRange (op : BitVec 7) : Bool := decide (setMin ≤ op.toNat ∧ op.toNat ≤ setMax) && decide (op ≠ customOp)

/-- An array of the custom request is present exactly when its mask bit is 1, and then holds one value per motor
(44 R197, R198). -/
def arrayFits (mask : Byte) (bit n len : Nat) : Bool :=
  decide (len = if mask.getLsbD bit then n else 0)

/-- The set arrays of a custom request share one motor count (44 R198). -/
def customArraysFit (mask : Byte) (n : Nat) (speed position : List Word16) (angle : List Int) : Bool :=
  arrayFits mask bitSetSpeed n speed.length && arrayFits mask bitSetPosition n position.length
    && arrayFits mask bitSetAngle n angle.length

/-- The class of a command byte: the error flag first, since with it set the low bits mean nothing (30 R76), then the
code ranges of 30 R74. -/
def classify (b : Byte) : CmdClass :=
  let op := (b &&& cmdMask).setWidth 7
  if b.getLsbD errFlagBit then .errFlag op
  else if op = customOp then .custom
  else if inGetRange op then .get op
  else if inSetRange op then .set op
  else .unassigned op

/-- What a class says of the payload (30 R74 to R76, R81). -/
def CmdClass.payload : CmdClass → PayloadRule
  | .errFlag _ => .errorCode
  | .custom => .customFormats
  | .get _ => .anyFormat
  | .set _ => .anyFormat
  | .unassigned _ => .rawOnly

/-- The operands of a typed operation's request lie in the ranges their layout defines (43 R175, 44 R198). -/
def Request.inDomain : Request → Bool
  | .raw _ => true
  | .pid _ _ _ _ => true
  | .allSet r motors => motors.all fun m => inRange16 r m.1
  | .custom mask n speed position angle =>
    customArraysFit mask n speed position angle && angle.all (inRange16 .signed)

/-- The layouts a typed operation may attach to its command code: the custom formats with the custom code and no
other, with one mask for both directions (30 R74, 44 R200); RAW alone with an unassigned code (30 R81); no code with
the error flag (45 R230). -/
def layoutsAllowed (c : Byte) (req : Request) (rsp : Response) : Bool :=
  match (classify c).payload, req, rsp with
  | .customFormats, .custom mask _ _ _ _, .custom mask' _ => decide (mask = mask')
  | .customFormats, _, _ => false
  | .errorCode, _, _ => false
  | .rawOnly, .raw _, .raw => true
  | .rawOnly, _, _ => false
  | .anyFormat, .custom _ _ _ _ _, _ => false
  | .anyFormat, _, .custom _ _ => false
  | .anyFormat, _, _ => true

end Sys2Proof
end

