-- ==== Sys2Proof/Syntax.lean ====
section
/-! DEFINITION. The instructions: one constructor per row of spec/opcode_table.json, in its order (30 R90, R93). -/

namespace Sys2Proof

/-- The operations of the block. -/
inductive Instr where
  -- RXB: the transitions of the Frame Decoder (40 R100 to R112); `b` is the received byte
  | rxbDiscard (b : Byte)
  | rxbH0Hit
  | rxbH0Miss (b : Byte)
  | rxbH1Hit
  | rxbH1Miss (b : Byte)
  | rxbDest (b : Byte)
  | rxbSrc (b : Byte)
  | rxbCmd (b : Byte)
  | rxbLenZero
  | rxbLenOk (b : Byte)
  | rxbLenBad (b : Byte)
  | rxbPayMore (b : Byte)
  | rxbPayLast (b : Byte)
  | rxbChkAccept (b : Byte)
  | rxbChkDrop (b : Byte)
  -- HOST: the operations of the host sequencer
  | reset (master : Byte)
  | decReset
  | check (target expCmd : Byte) (cap : Nat)
  | send (target command : Byte) (payload : List Byte)
  | encode (d src c : Byte) (payload : List Byte)
  | await (target expCmd : Byte) (timeoutMs cap : Nat)
  | setTimeout (ms : Nat)
  | op (target c : Byte) (req : Request) (cap : Nat) (rsp : Response)
  -- CODEC: the pure functions of 43 and 44; `bs` a byte sequence, `a` an offset into it
  | packU8 (v : Byte)
  | unpackU8 (bs : List Byte) (a : Nat)
  | packU16 (v : Word16)
  | unpackU16 (bs : List Byte) (a : Nat)
  | packS16 (v : Int)
  | unpackS16 (bs : List Byte) (a : Nat)
  | packF32 (w : Word32)
  | unpackF32 (bs : List Byte) (a : Nat)
  | raw (payload : List Byte)
  | packPid (pTerm iTerm dTerm gTerm : Word32)
  | unpackPid (bs : List Byte) (a : Nat)
  | packAllSet (reading : Reading) (motors : List (Int × Byte))
  | unpackAllGet (reading : Reading) (payload : List Byte) (cap : Nat)
  | unpackCali (payload : List Byte) (capMotors capThumb : Nat)
  | packCustom (mask : Byte) (n : Nat) (speed position : List Word16) (angle : List Int)
  | unpackCustom (mask : Byte) (payload : List Byte) (cap : Nat)
  -- FRAME: one frame on the wire (30 R70)
  | frame (d src command : Byte) (payload : List Byte) (lrc : Byte)
  -- CMD: a command byte of each class (30 R74, R76, R81)
  | cmdErrflag (opc : BitVec 7)
  | cmdCustom
  | cmdGet (opc : BitVec 7)
  | cmdSet (opc : BitVec 7)
  | cmdUnassigned (opc : BitVec 7)
  deriving DecidableEq, Repr

end Sys2Proof
end

