-- ==== Sys2Proof/WellFormed.lean ====
section
/-! DEFINITION. Which instructions are well formed: the operands lie in the ranges the rules define them on. -/

namespace Sys2Proof

/-- The check, one clause per constructor; the rule that defines the range stands beside it. -/
def Instr.wellFormed : Instr → Bool
  | .rxbDiscard _ => true
  | .rxbH0Hit => true
  | .rxbH0Miss b => decide (b ≠ header0)                                     -- 40 R102
  | .rxbH1Hit => true
  | .rxbH1Miss b => decide (b ≠ header1)                                     -- 40 R103
  | .rxbDest _ => true
  | .rxbSrc _ => true
  | .rxbCmd _ => true
  | .rxbLenZero => true
  | .rxbLenOk b => decide (1 ≤ b.toNat ∧ b.toNat ≤ maxRxLen)              -- 40 R107
  | .rxbLenBad b => decide (maxRxLen < b.toNat)                           -- 40 R107
  | .rxbPayMore _ => true
  | .rxbPayLast _ => true
  | .rxbChkAccept _ => true
  | .rxbChkDrop _ => true
  | .reset _ => true
  | .decReset => true
  | .check _ _ _ => true
  | .send _ _ _ => true
  | .encode _ _ _ p => decide (p.length ≤ maxTxLen)                       -- 42 R151
  | .await _ _ _ _ => true
  | .setTimeout _ => true
  | .op _ c req _ rsp => req.inDomain && layoutsAllowed c req rsp         -- 45 R230, 30 R81, 43 R175
  | .packU8 _ => true
  | .unpackU8 bs a => decide (a < bs.length)                              -- 43 R166
  | .packU16 _ => true
  | .unpackU16 bs a => decide (a + 2 ≤ bs.length)                         -- 43 R168
  | .packS16 v => inRange16 .signed v                                     -- 43 R169, R175
  | .unpackS16 bs a => decide (a + 2 ≤ bs.length)                         -- 43 R170
  | .packF32 _ => true
  | .unpackF32 bs a => decide (a + 4 ≤ bs.length)                         -- 43 R172
  | .raw _ => true
  | .packPid _ _ _ _ => true
  | .unpackPid _ _ => true
  | .packAllSet r motors => motors.all fun m => inRange16 r m.1           -- 44 R189, 43 R175
  | .unpackAllGet _ _ _ => true
  | .unpackCali _ _ _ => true
  | .packCustom mask n speed position angle =>                            -- 44 R197, R198, 43 R175
    customArraysFit mask n speed position angle && angle.all (inRange16 .signed)
  | .unpackCustom _ _ _ => true
  | .frame _ _ _ p _ => decide (p.length ≤ maxRxLen)                      -- 30 R70
  | .cmdErrflag _ => true
  | .cmdCustom => true
  | .cmdGet opc => inGetRange opc                                         -- 30 R74
  | .cmdSet opc => inSetRange opc                                         -- 30 R74
  | .cmdUnassigned opc => !inGetRange opc && !inSetRange opc && decide (opc ≠ customOp)  -- 30 R81

/-- A well-formed instruction. -/
abbrev Instr.WellFormed (i : Instr) : Prop := i.wellFormed = true

end Sys2Proof
end

