-- ==== Sys2Proof/Decode.lean ====
section
/-! DEFINITION. Decoding: which instruction bytes are, at each place the spec decodes bytes (30 R93, 40 R100), and the
encoder from the same tables. HOST and CODEC rows have no bit-level encoding (30 R93): `encode` answers none for them,
and the host calls them with their operands (log 2). -/

namespace Sys2Proof

/-- Why bytes decode to no instruction. -/
inductive DecodeError where
  /-- The bytes end before the instruction does. -/
  | truncated
  /-- A frame's first byte is not HEADER0 (30 R70). -/
  | badHeader0 (b : Byte)
  /-- A frame's second byte is not HEADER1 (30 R70). -/
  | badHeader1 (b : Byte)
  /-- A frame's length byte is above MAX_RX_LEN (30 R79). -/
  | lengthOverLimit (b : Byte)
  deriving DecidableEq, Repr

/-- The transition a received byte executes: the dispatch of 40 R100, total on selectors and bytes. -/
def decodeByte (sel : Selector) (b : Byte) : Instr :=
  if sel.ready then .rxbDiscard b
  else match sel.phase with
    | .awaitHeader0 => if b = header0 then .rxbH0Hit else .rxbH0Miss b
    | .awaitHeader1 => if b = header1 then .rxbH1Hit else .rxbH1Miss b
    | .awaitDestAddr => .rxbDest b
    | .awaitSrcAddr => .rxbSrc b
    | .awaitCommand => .rxbCmd b
    | .awaitLength =>
      if b = 0 then .rxbLenZero else if b.toNat ≤ maxRxLen then .rxbLenOk b else .rxbLenBad b
    | .awaitPayload left => if left = 0 then .rxbPayLast b else .rxbPayMore b
    | .awaitChecksum => if sel.toMaster then .rxbChkAccept b else .rxbChkDrop b

/-- The row a command byte belongs to (30 R74, R76, R81), total on bytes. -/
def decodeCommand (b : Byte) : Instr :=
  match classify b with
  | .errFlag opc => .cmdErrflag opc
  | .custom => .cmdCustom
  | .get opc => .cmdGet opc
  | .set opc => .cmdSet opc
  | .unassigned opc => .cmdUnassigned opc

/-- One whole frame, length found from its sixth byte (30 R70, R84), with the bytes after it. -/
def decodeFrame : List Byte → Except DecodeError (Instr × List Byte)
  | h0 :: h1 :: d :: src :: c :: n :: rest =>
    if h0 ≠ header0 then .error (.badHeader0 h0)
    else if h1 ≠ header1 then .error (.badHeader1 h1)
    else if maxRxLen < n.toNat then .error (.lengthOverLimit n)
    else match rest.drop n.toNat with
      | lrc :: after => .ok (.frame d src c (rest.take n.toNat) lrc, after)
      | [] => .error .truncated
  | _ => .error .truncated

/-- The instruction at the head of a list of bytes, at each place bytes are decoded, with the bytes after it. -/
def decode : Port → List Byte → Except DecodeError (Instr × List Byte)
  | .byte sel, b :: rest => .ok (decodeByte sel b, rest)
  | .command, b :: rest => .ok (decodeCommand b, rest)
  | .frame, bs => decodeFrame bs
  | .byte _, [] => .error .truncated
  | .command, [] => .error .truncated

/-- The bytes of a frame on the wire: `[55 AA d s c n] ++ p ++ [k]` (20 R51, 30 R70). -/
def frameBytes (d src c : Byte) (payload : List Byte) (lrc : Byte) : List Byte :=
  [header0, header1, d, src, c, BitVec.ofNat 8 payload.length] ++ payload ++ [lrc]

/-- The command byte with a given error flag and operation code (30 R70, positions 4 bit 7 and bits 6:0). -/
def commandByte (err : Bool) (opc : BitVec 7) : Byte := BitVec.ofBool err ++ opc

/-- The bytes of an instruction, for every row that has an encoding: a transition is the byte it consumes, FRAME its
wire format, CMD the command byte (30 R93). -/
def encode : Instr → Option (List Byte)
  | .rxbDiscard b => some [b]
  | .rxbH0Hit => some [header0]
  | .rxbH0Miss b => some [b]
  | .rxbH1Hit => some [header1]
  | .rxbH1Miss b => some [b]
  | .rxbDest b => some [b]
  | .rxbSrc b => some [b]
  | .rxbCmd b => some [b]
  | .rxbLenZero => some [0]
  | .rxbLenOk b => some [b]
  | .rxbLenBad b => some [b]
  | .rxbPayMore b => some [b]
  | .rxbPayLast b => some [b]
  | .rxbChkAccept b => some [b]
  | .rxbChkDrop b => some [b]
  | .frame d src c p k => some (frameBytes d src c p k)
  | .cmdErrflag opc => some [commandByte true opc]
  | .cmdCustom => some [commandByte false customOp]
  | .cmdGet opc => some [commandByte false opc]
  | .cmdSet opc => some [commandByte false opc]
  | .cmdUnassigned opc => some [commandByte false opc]
  | .reset _ => none
  | .decReset => none
  | .check _ _ _ => none
  | .send _ _ _ => none
  | .encode _ _ _ _ => none
  | .await _ _ _ _ => none
  | .setTimeout _ => none
  | .op _ _ _ _ _ => none
  | .packU8 _ => none
  | .unpackU8 _ _ => none
  | .packU16 _ => none
  | .unpackU16 _ _ => none
  | .packS16 _ => none
  | .unpackS16 _ _ => none
  | .packF32 _ => none
  | .unpackF32 _ _ => none
  | .raw _ => none
  | .packPid _ _ _ _ => none
  | .unpackPid _ _ => none
  | .packAllSet _ _ => none
  | .unpackAllGet _ _ _ => none
  | .unpackCali _ _ _ => none
  | .packCustom _ _ _ _ _ => none
  | .unpackCustom _ _ _ => none

/-- The state columns of the opcode table: which selectors a transition's row is selected by ("Selected when" of
40 R101 to R112); the byte columns are `Instr.wellFormed`. No row of another family is a transition. -/
def Instr.selectedBy (sel : Selector) : Instr → Bool
  | .rxbDiscard _ => sel.ready
  | .rxbH0Hit => decide (sel.ready = false ∧ sel.phase = .awaitHeader0)
  | .rxbH0Miss _ => decide (sel.ready = false ∧ sel.phase = .awaitHeader0)
  | .rxbH1Hit => decide (sel.ready = false ∧ sel.phase = .awaitHeader1)
  | .rxbH1Miss _ => decide (sel.ready = false ∧ sel.phase = .awaitHeader1)
  | .rxbDest _ => decide (sel.ready = false ∧ sel.phase = .awaitDestAddr)
  | .rxbSrc _ => decide (sel.ready = false ∧ sel.phase = .awaitSrcAddr)
  | .rxbCmd _ => decide (sel.ready = false ∧ sel.phase = .awaitCommand)
  | .rxbLenZero => decide (sel.ready = false ∧ sel.phase = .awaitLength)
  | .rxbLenOk _ => decide (sel.ready = false ∧ sel.phase = .awaitLength)
  | .rxbLenBad _ => decide (sel.ready = false ∧ sel.phase = .awaitLength)
  | .rxbPayMore _ =>
    match sel.phase with
    | .awaitPayload left => decide (sel.ready = false ∧ left ≠ 0)
    | _ => false
  | .rxbPayLast _ => decide (sel.ready = false ∧ sel.phase = .awaitPayload 0)
  | .rxbChkAccept _ => decide (sel.ready = false ∧ sel.phase = .awaitChecksum ∧ sel.toMaster = true)
  | .rxbChkDrop _ => decide (sel.ready = false ∧ sel.phase = .awaitChecksum ∧ sel.toMaster = false)
  | _ => false

/-- The place an instruction's bytes are decoded at. -/
def Instr.readAt : Port → Instr → Bool
  | .byte sel, i => i.selectedBy sel
  | .frame, .frame _ _ _ _ _ => true
  | .command, .cmdErrflag _ => true
  | .command, .cmdCustom => true
  | .command, .cmdGet _ => true
  | .command, .cmdSet _ => true
  | .command, .cmdUnassigned _ => true
  | _, _ => false

/-- The most bytes an encoded instruction has: a frame with MAX_RX_LEN payload bytes (20 R51). -/
def longestBytes : Nat := 7 + maxRxLen

/-- A word of the opcode table laid out as bytes, the first at the lowest position, zeros above `nbits`. -/
def wordBytes (nbits w : Nat) : List Byte :=
  (List.range longestBytes).map fun k => BitVec.ofNat 8 ((w % 2 ^ nbits) >>> (8 * k))

/-- Where a word of the opcode table is decoded (log 2). A lone byte is a transition's at the phase whose row fixes that
very byte (H0.HIT, H1.HIT, LEN.ZERO) and else a command byte (the CMD rows); anything longer is a frame. -/
def tablePort (nbits w : Nat) : Option Port :=
  if nbits = 0 then none
  else if 8 < nbits then some .frame
  else
    let b := BitVec.ofNat 8 (w % 2 ^ nbits)
    if b = header0 then some (.byte ⟨false, .awaitHeader0, false⟩)
    else if b = header1 then some (.byte ⟨false, .awaitHeader1, false⟩)
    else if b = 0 then some (.byte ⟨false, .awaitLength, false⟩)
    else some .command

/-- The instruction the decoder reads from a word of the opcode table. -/
def decodeTableWord (nbits w : Nat) : Option Instr :=
  match tablePort nbits w with
  | none => none
  | some port =>
    match decode port (wordBytes nbits w) with
    | .ok (i, _) => some i
    | .error _ => none

end Sys2Proof
end

