-- ==== Sys2Proof/Config.lean ====
section
/-! DEFINITION. What an instance of the block fixes and the spec leaves open (00 R4), and the free values (93). Every
constant here is opaque: nothing can be proved of its value, so a claim holds whatever it is. -/

namespace Sys2Proof

/-- MASTER_ADDR of the instance at State.reset (00 R4, 10 R30, D21; log 17). The operation RESET takes its own. -/
opaque Config.masterAddr : Byte

/-- DEFAULT_TIMEOUT_MS (00 R4, 10 R39, D21; log 17). -/
opaque Config.defaultTimeoutMs : Nat

/-- ERR_CODE, the numbers of the error names (00 R4, D22; log 17); no rule of the block uses them. -/
opaque Config.errCode : ErrName → Nat

/-- The one constraint 00 R4 puts on ERR_CODE; a claim about the numbers takes it as a premise. -/
def Config.ErrCodeInjective : Prop := Function.Injective Config.errCode

/-- Free value: the byte drawn at the n-th draw (93 U1, U6; log 14, log 16). -/
opaque Config.freeByte : Nat → Byte

/-- Free value: what cell `a` of the payload capture buffer holds as long as nothing has written it, after the
`built`-th construction of the context (10 R25, R38, 93 U6, U7; log 15). -/
opaque Config.unwrittenByte : (built a : Nat) → Byte

/-- Free value: the transport's answer to a send for which the environment has scripted none, at the n-th draw
(93 U11; log 9). -/
opaque Config.transportAnswer : Nat → Bool

end Sys2Proof
end

