-- ==== Sys2Proof/Machine/State.lean ====
section
/-! DEFINITION. The state as plain data: the registers of 10 R20, the call in progress (10 R32), the ports to the
environment (00 section 6), and the state after reset (10 section 7). -/

namespace Sys2Proof.Machine

/-- The bytes stored in the payload capture buffer `pay[0..63]` (10 R25): (address, byte) pairs, addresses strictly rising
and below 64. A cell that is not listed holds the free value Config.unwrittenByte (10 R38; log 15). -/
abbrev Memory := List Host.Cell

/-- The canonical form from an address upward. -/
def Memory.risingFrom : Nat → Memory → Bool
  | _, [] => true
  | lo, (a, _) :: m => decide (lo ≤ a) && decide (a < payCells) && Memory.risingFrom (a + 1) m

/-- The canonical form: addresses strictly rising, all of them cells that exist. What an unlisted cell holds is a free
value, which no stored byte is known to equal, so every stored byte is listed (log 15). -/
def Memory.wf (m : Memory) : Bool := Memory.risingFrom 0 m

/-- The TransactionContext of the AWAIT in progress (10 R32, 45 R221), held for the duration of the call. `unpack` is
the layout a typed operation unpacks the payload with, none for a bare AWAIT (45 R230). -/
structure Wait where
  target : Byte
  expCmd : Byte
  startTime : Nat
  timeoutMs : Nat
  cap : Nat
  unpack : Option Response
  deriving DecidableEq, Repr

/-- How one iteration of the wait loop finds the deadline (45 R224, R227; log 6). -/
inductive Deadline where
  /-- The environment's draw, with no clock value in it (45 R227). -/
  | drawn (expired : Bool)
  /-- A scripted clock: the timer has advanced by so many milliseconds, and the reference comparison decides
  (45 R224, 60 R251). -/
  | clock (elapsedMs : Nat)
  deriving DecidableEq, Repr

/-- A line of the stimulus script, the program of this block (30 R91, R92; 95 section 3; log 1). -/
inductive Line where
  /-- `RXB b`: one byte is delivered. -/
  | rxb (b : Byte)
  /-- `POLL [bytes]`: one iteration of the wait loop in which the transport delivered these bytes, the deadline was found
  as `deadline` says, and, should a frame be ready and the deadline reached at once, the environment keeps the frame or
  not (45 R223, R224, R227; log 5, log 6). -/
  | poll (bytes : List Byte) (deadline : Deadline) (keepFrame : Bool)
  /-- The wait in progress is cut short from outside (60 R246; log 7). -/
  | abort
  /-- The host applies an operation. -/
  | call (i : Instr)
  deriving DecidableEq, Repr

/-- The state of the machine. -/
structure State where
  -- the Frame Decoder (10 R20); `rem` is carried by `phase` (10 R22)
  phase : Phase
  dest : Byte
  src : Byte
  cmd : Byte
  len : Byte
  chk : Byte
  pay : Memory
  ready : Bool
  -- configuration and control (10 R30, R31, R32)
  masterAddr : Byte
  cmdTimeoutMs : Nat
  wait : Option Wait
  -- the result port (60 R240)
  result : Option Result
  -- inputs from the environment (42 R153, R154; 60 R251; 30 R91)
  ctxValid : Bool
  timerOk : Bool
  sendAnswers : List Bool
  nowMs : Nat
  script : List Line
  -- the transmit sequences handed to the transport, each with its answer (20 R50, 42 R154)
  sent : List (List Byte × Bool)
  -- the model's own: free values drawn so far (log 38), and how often RESET has constructed the context (log 15)
  draws : Nat
  built : Nat
  deriving DecidableEq, Repr

/-- Why the machine stops with a fault. Both are safe (a cell that does not exist would be accessed), and no state that a
run from reset reaches raises either (10 R22, R28; log 20). -/
inductive Fault where
  /-- A payload byte would be stored outside `pay[0..63]`: `len` is below `rem`, or above 64. Raised by RXB.PAY.MORE,
  RXB.PAY.LAST and whatever delivers bytes through them (FRAME, AWAIT, OP). Safe. -/
  | payOffset
  /-- The captured span `pay[0..len)` runs past the buffer: `len` is above 64. Raised by CHECK and by whatever ends in it
  (AWAIT, OP). Safe. -/
  | paySpan
  deriving DecidableEq, Repr

/-- Why an operation is given no step. All are safe: the machine stops where the spec gives no effect. -/
inductive Refusal where
  /-- The instruction has no meaning yet. Raised by exec's arms only. -/
  | notModelled (mnemonic : String)
  /-- A transition applied in a state, or to a byte, that does not select its row (40 R100). Raised by the RXB rows; the
  decoder never chooses such a row. -/
  | notSelected
  /-- CHECK with no ready frame (41 R139). Raised by CHECK. -/
  | checkNotReady
  /-- An operand outside the range its rule is defined on (43 R166 to R172, R175; 42 R151). Raised by ENCODE, the field
  codec, PACK_ALL_SET, PACK_CUSTOM and OP. -/
  | outsideDomain
  /-- Set arrays that do not share the motor count, or present against the mask (44 R198, 93 U5). Raised by
  PACK_CUSTOM. -/
  | motorCountMismatch
  /-- A called operation that is not well formed. Raised by step. -/
  | illFormed
  /-- A host operation other than RESET and SET_TIMEOUT while the host is inside AWAIT (70 R280, 93 U15). Raised by step. -/
  | hostWaiting
  /-- A POLL or abort line while no AWAIT runs: nothing polls the transport then (45 R229). Raised by step. -/
  | noWaitRunning
  deriving DecidableEq, Repr

/-- The machine right after reset (10 R37 to R39). The capture registers, which the spec leaves unspecified, hold 0 here
(log 13), and the cells of the payload buffer free values (log 15); MASTER_ADDR and DEFAULT_TIMEOUT_MS are the
instance's parameters (log 17). -/
def State.reset : State where
  phase := .awaitHeader0
  dest := 0
  src := 0
  cmd := 0
  len := 0
  chk := 0
  pay := []
  ready := false
  masterAddr := Config.masterAddr
  cmdTimeoutMs := Config.defaultTimeoutMs
  wait := none
  result := none
  ctxValid := true
  timerOk := true
  sendAnswers := []
  nowMs := 0
  script := []
  sent := []
  draws := 0
  built := 0

end Sys2Proof.Machine
end

