-- ==== Sys2Proof/Machine/Ops.lean ====
section
/-! DEFINITION. The named operations over the state: one update per register, the payload capture buffer, how an
operation ends (`return Ok`, `raise E`), the decoder's two partial resets, free values, and the transport's port. -/

namespace Sys2Proof.Machine

/-- What an operation answers. -/
abbrev Out := Host.Outcome State Fault Refusal

/-- Do `f` in the next state, if there is one. -/
def andThen (o : Out) (f : State → Out) : Out :=
  match o with
  | .next s => f s
  | .fault e => .fault e
  | .refused e => .refused e

/-! ### Registers -/

def State.setPhase (p : Phase) (s : State) : State := { s with phase := p }
def State.setDest (b : Byte) (s : State) : State := { s with dest := b }
def State.setSrc (b : Byte) (s : State) : State := { s with src := b }
def State.setCmd (b : Byte) (s : State) : State := { s with cmd := b }
def State.setLen (b : Byte) (s : State) : State := { s with len := b }
def State.setChk (b : Byte) (s : State) : State := { s with chk := b }
def State.setPay (m : Memory) (s : State) : State := { s with pay := m }
def State.setReady (r : Bool) (s : State) : State := { s with ready := r }
def State.setTimeout (t : Nat) (s : State) : State := { s with cmdTimeoutMs := t }
def State.setWait (w : Option Wait) (s : State) : State := { s with wait := w }
def State.setResult (r : Option Result) (s : State) : State := { s with result := r }
def State.setNow (t : Nat) (s : State) : State := { s with nowMs := t }
def State.setScript (l : List Line) (s : State) : State := { s with script := l }
def State.setDraws (n : Nat) (s : State) : State := { s with draws := n }

/-- What selects the transition of the next byte (40 R100). -/
def State.selector (s : State) : Selector := ⟨s.ready, s.phase, decide (s.dest = s.masterAddr)⟩

/-! ### The payload capture buffer (10 R25) -/

/-- The byte stored at a cell; none where nothing was written. -/
def Memory.read : Memory → Nat → Option Byte
  | [], _ => none
  | (k, v) :: m, a => if k = a then some v else Memory.read m a

/-- Store a byte at a cell, keeping the canonical form. -/
def Memory.write : Memory → Nat → Byte → Memory
  | [], a, v => [(a, v)]
  | (k, w) :: m, a, v =>
    if a < k then (a, v) :: (k, w) :: m
    else if a = k then (a, v) :: m
    else (k, w) :: Memory.write m a v

/-- Store consecutive bytes from cell `a` upward. -/
def Memory.writeAll (m : Memory) : Nat → List Byte → Memory
  | _, [] => m
  | a, b :: bs => Memory.writeAll (m.write a b) (a + 1) bs

/-- What cell `a` holds: the byte stored last, or the free value of a cell that nothing has written since the context was
constructed (10 R25, R38; log 15); none where no such cell exists. -/
def State.cell (s : State) (a : Nat) : Option Byte :=
  if a < payCells then some ((s.pay.read a).getD (Config.unwrittenByte s.built a)) else none

/-- The `n` bytes from cell `a` upward; none if one of the cells does not exist. -/
def State.span (s : State) : Nat → Nat → Option (List Byte)
  | _, 0 => some []
  | a, n + 1 =>
    match s.cell a, s.span (a + 1) n with
    | some b, some bs => some (b :: bs)
    | _, _ => none

/-- The captured payload `pay[0..len)` (41 R130). -/
def State.payload (s : State) : Option (List Byte) := s.span 0 s.len.toNat

/-- The cell the awaited payload byte goes to, `len - rem` with `rem = left + 1` (10 R23); none outside the buffer. -/
def State.payOffset (left : Fin maxRxLen) (s : State) : Option Nat :=
  if left.val + 1 ≤ s.len.toNat ∧ s.len.toNat - (left.val + 1) < payCells then some (s.len.toNat - (left.val + 1))
  else none

/-- The arena view of the capture store, its 69 bytes (10 R27, 20 R50): offset 0 `dest`, 1 `src`, 2 `cmd`, 3 `len`, then
the payload cells, with the checksum byte at 4 + `len`. The last byte, which only the checksum of a largest frame
reaches, holds a free value otherwise (93 U7; log 37). -/
def State.arena (s : State) (off : Nat) : Option Byte :=
  match off with
  | 0 => some s.dest
  | 1 => some s.src
  | 2 => some s.cmd
  | 3 => some s.len
  | k + 4 =>
    if captureBytes ≤ k + 4 then none
    else if k = s.len.toNat then some s.chk
    else some ((s.cell k).getD (Config.unwrittenByte s.built k))

/-! ### How an operation ends (60 R240) -/

/-- `return Ok(v)`: the operation ends with a success value. -/
def returnOk (v : Value) (s : State) : Out := .next (s.setResult (some (.ok v)))

/-- `raise E`: the operation ends and its result is the error; nothing is saved and no control is transferred, here as
for every error of the block (60 R240, R248). -/
def raise (e : Err) (s : State) : Out := .next (s.setResult (some (.err e)))

/-- End with a value computed by a total rule. -/
def endWith (r : Result) (s : State) : Out :=
  match r with
  | .ok v => returnOk v s
  | .err e => raise e s

/-- A transition where it is selected, nothing elsewhere (40 R100). -/
def whenSelected (sel : Bool) (o : Out) : Out := if sel then o else .refused .notSelected

/-- An operation on operands in its domain, nothing elsewhere (43 R175). -/
def whenDefined (ok : Bool) (o : Out) : Out := if ok then o else .refused .outsideDomain

/-! ### Partial resets, free values, the transport -/

/-- DEC_RESET's effect: phase and ready flag, everything else unchanged (40 R114, 10 R40). -/
def State.decoderReset (s : State) : State := (s.setPhase .awaitHeader0).setReady false

/-- The free byte of this draw (log 16). -/
def State.freshByte (s : State) : Byte := Config.freeByte s.draws

/-- The transport's answer to this send: the environment's next one, or a free value where it scripted none
(42 R154, 93 U11; log 9). -/
def State.transportAnswer (s : State) : Bool :=
  match s.sendAnswers with
  | a :: _ => a
  | [] => Config.transportAnswer s.draws

/-- The whole frame is handed to the transport in one piece, and its answer is used up (42 R154, 20 R50). -/
def State.handOver (frame : List Byte) (s : State) : State :=
  { s with
    sent := s.sent ++ [(frame, s.transportAnswer)]
    sendAnswers := s.sendAnswers.tail
    draws := s.draws + 1 }

end Sys2Proof.Machine
end

