-- ==== Sys2Proof/Machine/Flags.lean ====
section
/-! DEFINITION. The flags and the checksum: the error flag of a command byte (10 R33), the exclusive or over a frame
(30 R71), and the checksum test (41 R132). -/

namespace Sys2Proof.Machine

/-- The error flag, bit 7 of a command byte (10 R33). -/
def errFlag (c : Byte) : Bool := c.getLsbD errFlagBit

/-- `xor(s)`: the exclusive or of all bytes of a sequence, 0 of none (00 section 5.1). -/
def xorBytes (bs : List Byte) : Byte := bs.foldr (· ^^^ ·) 0

/-- The checksum: the exclusive or of `dest_addr` through the last payload byte (30 R71). -/
def lrc (d src c n : Byte) (payload : List Byte) : Byte := d ^^^ src ^^^ c ^^^ n ^^^ xorBytes payload

/-- The checksum recomputed over the captured span (41 R132). -/
def State.spanLrc (s : State) (payload : List Byte) : Byte := lrc s.dest s.src s.cmd s.len payload

end Sys2Proof.Machine
end

