-- ==== Sys2Proof/Machine/Operands.lean ====
section
/-! DEFINITION. Every operand form: the fields of 43 (u8, u16, s16, f32), the arrays of them, and the layouts of 44,
as pure functions. A field is read at an offset whose bounds the caller has checked (20 R59). -/

namespace Sys2Proof.Machine

/-! ### Fields (43) -/

/-- The byte at an offset that the caller has checked; the 0 stands for bytes that are never read (20 R59). -/
def byteAt (bs : List Byte) (a : Nat) : Byte := bs.getD a 0

/-- PACK_U8 (43 R165). -/
def packU8 (v : Byte) : List Byte := [v]

/-- UNPACK_U8 (43 R166). -/
def unpackU8 (bs : List Byte) (a : Nat) : Nat := (byteAt bs a).toNat

/-- PACK_U16: low byte first (43 R167). -/
def packU16 (v : Word16) : List Byte := [v.setWidth 8, (v >>> 8).setWidth 8]

/-- UNPACK_U16 (43 R168). -/
def unpackU16 (bs : List Byte) (a : Nat) : Nat := unpackU8 bs a + 256 * unpackU8 bs (a + 1)

/-- PACK_S16: PACK_U16 of the value modulo 65536 (43 R169). -/
def packS16 (v : Int) : List Byte := packU16 (BitVec.ofNat 16 (v % 65536).toNat)

/-- `sext` of a 16-bit value (00 section 5.1, 43 R170). -/
def sext16 (u : Nat) : Int := if u < 32768 then u else (u : Int) - 65536

/-- UNPACK_S16 (43 R170). -/
def unpackS16 (bs : List Byte) (a : Nat) : Int := sext16 (unpackU16 bs a)

/-- PACK_F32: the pattern, least significant byte first (43 R171, D13; log 25). -/
def packF32 (w : Word32) : List Byte :=
  [w.setWidth 8, (w >>> 8).setWidth 8, (w >>> 16).setWidth 8, (w >>> 24).setWidth 8]

/-- UNPACK_F32: the pattern bit for bit (43 R172). -/
def unpackF32 (bs : List Byte) (a : Nat) : Word32 :=
  BitVec.ofNat 32 (unpackU8 bs a + 2 ^ 8 * unpackU8 bs (a + 1) + 2 ^ 16 * unpackU8 bs (a + 2)
    + 2 ^ 24 * unpackU8 bs (a + 3))

/-- PACK16 under a reading (44 R189). -/
def pack16 : Reading → Int → List Byte
  | .unsigned, v => packU16 (BitVec.ofNat 16 v.toNat)
  | .signed, v => packS16 v

/-- UNPACK16 under a reading (44 R192). -/
def unpack16 : Reading → List Byte → Nat → Int
  | .unsigned, bs, a => unpackU16 bs a
  | .signed, bs, a => unpackS16 bs a

/-! ### Arrays: `n` consecutive fields from an offset (44 R192, R195, R204) -/

/-- `n` consecutive u16 fields. -/
def u16Array (bs : List Byte) (o n : Nat) : List Nat := (List.range n).map fun k => unpackU16 bs (o + 2 * k)

/-- `n` consecutive s16 fields. -/
def s16Array (bs : List Byte) (o n : Nat) : List Int := (List.range n).map fun k => unpackS16 bs (o + 2 * k)

/-- `n` consecutive 16-bit fields under a reading. -/
def array16 (r : Reading) (bs : List Byte) (o n : Nat) : List Int :=
  (List.range n).map fun k => unpack16 r bs (o + 2 * k)

/-- `n` consecutive u8 fields. -/
def u8Array (bs : List Byte) (o n : Nat) : List Nat := (List.range n).map fun k => unpackU8 bs (o + k)

/-! ### Layouts (44) -/

/-- PACK_PID: P, I, D, G at offsets 0, 4, 8, 12 (44 R187, D14; log 26). -/
def packPid (pTerm iTerm dTerm gTerm : Word32) : List Byte :=
  packF32 pTerm ++ packF32 iTerm ++ packF32 dTerm ++ packF32 gTerm

/-- UNPACK_PID; fewer than 16 bytes is DataInvalid (44 R188, D14; log 26). -/
def unpackPid (bs : List Byte) (a : Nat) : Result :=
  if bs.length < a + 16 then .err .dataInvalid
  else .ok (.pid (unpackF32 bs a) (unpackF32 bs (a + 4)) (unpackF32 bs (a + 8)) (unpackF32 bs (a + 12)))

/-- PACK_ALL_SET: per motor a 16-bit value, then a speed byte (44 R189). -/
def packAllSet (r : Reading) (motors : List (Int × Byte)) : List Byte :=
  motors.flatMap fun m => pack16 r m.1 ++ packU8 m.2

/-- UNPACK_ALL_GET: remainder test, capacity test, extraction, in that order (44 R190 to R192; log 31). -/
def unpackAllGet (r : Reading) (p : List Byte) (cap : Nat) : Result :=
  let n := p.length / 4
  if p.length % 4 ≠ 0 then .err .dataInvalid
  else if cap < n then .err .dataTooLarge
  else .ok (.allGet n (array16 r p 0 n) (array16 r p (2 * n) n))

/-- UNPACK_CALI: header, capacity, exact length, extraction, in that order (44 R193 to R195; log 30). -/
def unpackCali (p : List Byte) (capM capT : Nat) : Result :=
  let mc := unpackU8 p 0
  let tc := unpackU8 p 1
  if p.length < 2 then .err .dataInvalid
  else if capM < mc ∨ capT < tc then .err .dataTooLarge
  else if p.length ≠ 2 + 4 * mc + 2 * tc then .err .dataInvalid
  else .ok (.cali mc tc (u16Array p 2 mc) (u16Array p (2 + 2 * mc) mc) (u16Array p (2 + 4 * mc) tc))

/-- One set array of the custom request: its values if its mask bit is 1, nothing otherwise (44 R197). -/
def setBlock (mask : Byte) (bit : Nat) (packed : List Byte) : List Byte := if mask.getLsbD bit then packed else []

/-- PACK_CUSTOM: the mask, then the active set arrays in the fixed order (44 R197). -/
def packCustom (mask : Byte) (speed position : List Word16) (angle : List Int) : List Byte :=
  packU8 mask ++ setBlock mask bitSetSpeed (speed.flatMap packU16)
    ++ setBlock mask bitSetPosition (position.flatMap packU16) ++ setBlock mask bitSetAngle (angle.flatMap packS16)

/-- The bytes per motor of a field in the custom response: `width` if its bit is set, 0 otherwise (44 R200). -/
def fieldWidth (mask : Byte) (bit width : Nat) : Nat := if mask.getLsbD bit then width else 0

/-- W, the sum of the active per-motor field widths (44 R200). -/
def customWidth (mask : Byte) : Nat :=
  fieldWidth mask bitGetPosition 2 + fieldWidth mask bitGetAngle 2 + fieldWidth mask bitGetCurrent 2
    + fieldWidth mask bitGetForce 2 + fieldWidth mask bitGetStatus 1

/-- The array of an active get bit; an inactive one has none (44 R204). -/
def getBlock {α : Type} (mask : Byte) (bit : Nat) (a : List α) : Option (List α) :=
  if mask.getLsbD bit then some a else none

/-- The arrays of a custom response of `n` motors: one block per active get bit, each after the blocks before it
(44 R204). -/
def customArrays (mask : Byte) (p : List Byte) (n : Nat) : Value :=
  let oAngle := fieldWidth mask bitGetPosition 2 * n
  let oCurrent := oAngle + fieldWidth mask bitGetAngle 2 * n
  let oForce := oCurrent + fieldWidth mask bitGetCurrent 2 * n
  let oStatus := oForce + fieldWidth mask bitGetForce 2 * n
  .custom n (getBlock mask bitGetPosition (u16Array p 0 n)) (getBlock mask bitGetAngle (s16Array p oAngle n))
    (getBlock mask bitGetCurrent (u16Array p oCurrent n)) (getBlock mask bitGetForce (u16Array p oForce n))
    (getBlock mask bitGetStatus (u8Array p oStatus n))

/-- UNPACK_CUSTOM: with no get bit active only the empty response is good (44 R202; log 29); otherwise remainder test,
capacity test, extraction, in that order (44 R200 to R204). -/
def unpackCustom (mask : Byte) (p : List Byte) (cap : Nat) : Result :=
  let w := customWidth mask
  let n := p.length / w
  if w = 0 then (if p.length = 0 then .ok (.custom 0 none none none none none) else .err .dataInvalid)
  else if p.length % w ≠ 0 then .err .dataInvalid
  else if cap < n then .err .dataTooLarge
  else .ok (customArrays mask p n)

/-! ### The layouts of a typed operation (45 R230) -/

/-- The payload of a request. A PID request is the one 16-byte block with nothing around it, the model's choice where the
source does not say what surrounds a block (44 R187, 91 N18; log 41). -/
def packRequest : Request → List Byte
  | .raw p => p
  | .pid p i d g => packPid p i d g
  | .allSet r motors => packAllSet r motors
  | .custom mask _ speed position angle => packCustom mask speed position angle

/-- The result of a response payload. A PID response is the block at its offset, whatever bytes stand around it, the model's
choice too (log 41). -/
def unpackResponse : Response → List Byte → Result
  | .raw, p => .ok (.bytes p)
  | .pid a, p => unpackPid p a
  | .allGet r cap, p => unpackAllGet r p cap
  | .cali capM capT, p => unpackCali p capM capT
  | .custom mask cap, p => unpackCustom mask p cap

end Sys2Proof.Machine
end

