-- ==== Sys2Proof/Machine/Check.lean ====
section
/-! DEFINITION. The Frame Check unit (41): the tests in their fixed order, and consuming the frame. -/

namespace Sys2Proof.Machine

/-- The code of a remote error: the payload byte at offset 1, a free value where the payload has none (41 R133 (c),
93 U1; log 16). -/
def State.remoteCode (s : State) (payload : List Byte) : Byte :=
  match payload with
  | _ :: c :: _ => c
  | _ => s.freshByte

/-- CHECK's result: checksum, error flag, source address, command, capacity, in that order (41 R130, R134). -/
def State.verdict (target expCmd : Byte) (cap : Nat) (s : State) (payload : List Byte) : Result :=
  if s.spanLrc payload ≠ s.chk then .err .badChecksum
  else if errFlag s.cmd then .err (.remoteError (s.remoteCode payload))
  else if target ≠ broadcast ∧ s.src ≠ target then .err .unmatchedAddress
  else if s.cmd &&& cmdMask ≠ expCmd then .err .unmatchedCommand
  else if cap < s.len.toNat then .err .bufferTooSmall
  else .ok (.bytes payload)

/-- Validate and consume the held frame: whatever the result, `ready` is cleared and no other register of the block
written (41 R131, R140; log 22). -/
def checkFrame (target expCmd : Byte) (cap : Nat) (s : State) : Out :=
  match s.payload with
  | some p => endWith (s.verdict target expCmd cap p) ((s.setReady false).setDraws (s.draws + 1))
  | none => .fault .paySpan

/-- CHECK: on a ready frame only (41 R130, R139; log 21). -/
def execCheck (target expCmd : Byte) (cap : Nat) (s : State) : Out :=
  if s.ready then checkFrame target expCmd cap s else .refused .checkNotReady

end Sys2Proof.Machine
end

