-- ==== Sys2Proof/Machine/Codec.lean ====
section
/-! DEFINITION. The Payload Codec (43, 44): one meaning per operation, each a pure function of its operands whose value
is the result; no register of the block is read or written. -/

namespace Sys2Proof.Machine

/-- PACK_U8 (43 R165). -/
def execPackU8 (v : Byte) (s : State) : Out := returnOk (.bytes (packU8 v)) s

/-- UNPACK_U8 (43 R166). -/
def execUnpackU8 (bs : List Byte) (a : Nat) (s : State) : Out :=
  whenDefined (decide (a < bs.length)) (returnOk (.nat (unpackU8 bs a)) s)

/-- PACK_U16 (43 R167). -/
def execPackU16 (v : Word16) (s : State) : Out := returnOk (.bytes (packU16 v)) s

/-- UNPACK_U16 (43 R168). -/
def execUnpackU16 (bs : List Byte) (a : Nat) (s : State) : Out :=
  whenDefined (decide (a + 2 ≤ bs.length)) (returnOk (.nat (unpackU16 bs a)) s)

/-- PACK_S16, on -32768 to 32767: no truncation (43 R169, R175). -/
def execPackS16 (v : Int) (s : State) : Out :=
  whenDefined (inRange16 .signed v) (returnOk (.bytes (packS16 v)) s)

/-- UNPACK_S16 (43 R170). -/
def execUnpackS16 (bs : List Byte) (a : Nat) (s : State) : Out :=
  whenDefined (decide (a + 2 ≤ bs.length)) (returnOk (.int (unpackS16 bs a)) s)

/-- PACK_F32 (43 R171). -/
def execPackF32 (w : Word32) (s : State) : Out := returnOk (.bytes (packF32 w)) s

/-- UNPACK_F32 (43 R172). -/
def execUnpackF32 (bs : List Byte) (a : Nat) (s : State) : Out :=
  whenDefined (decide (a + 4 ≤ bs.length)) (returnOk (.word32 (unpackF32 bs a)) s)

/-- RAW: the identity on byte sequences (44 R185). -/
def execRaw (payload : List Byte) (s : State) : Out := returnOk (.bytes payload) s

/-- PACK_PID (44 R187). -/
def execPackPid (pTerm iTerm dTerm gTerm : Word32) (s : State) : Out :=
  returnOk (.bytes (packPid pTerm iTerm dTerm gTerm)) s

/-- UNPACK_PID (44 R188). -/
def execUnpackPid (bs : List Byte) (a : Nat) (s : State) : Out := endWith (unpackPid bs a) s

/-- PACK_ALL_SET (44 R189). -/
def execPackAllSet (r : Reading) (motors : List (Int × Byte)) (s : State) : Out :=
  whenDefined (motors.all fun m => inRange16 r m.1) (returnOk (.bytes (packAllSet r motors)) s)

/-- UNPACK_ALL_GET (44 R190 to R192). -/
def execUnpackAllGet (r : Reading) (payload : List Byte) (cap : Nat) (s : State) : Out :=
  endWith (unpackAllGet r payload cap) s

/-- UNPACK_CALI (44 R193 to R195). -/
def execUnpackCali (payload : List Byte) (capM capT : Nat) (s : State) : Out :=
  endWith (unpackCali payload capM capT) s

/-- PACK_CUSTOM (44 R197); unequal motor counts are refused, never padded or truncated (R198). -/
def execPackCustom (mask : Byte) (n : Nat) (speed position : List Word16) (angle : List Int) (s : State) : Out :=
  if customArraysFit mask n speed position angle then
    whenDefined (angle.all (inRange16 .signed)) (returnOk (.bytes (packCustom mask speed position angle)) s)
  else .refused .motorCountMismatch

/-- UNPACK_CUSTOM (44 R200 to R204). -/
def execUnpackCustom (mask : Byte) (payload : List Byte) (cap : Nat) (s : State) : Out :=
  endWith (unpackCustom mask payload cap) s

end Sys2Proof.Machine
end

