-- ==== Sys2Proof/Machine/Command.lean ====
section
/-! DEFINITION. The CMD rows: a command byte of each class is classified, and the class says which payload goes with it
(30 R74 to R76, R81; log 4). No register of the block is read or written. -/

namespace Sys2Proof.Machine

/-- The result of classifying a command byte. -/
def classified (cls : CmdClass) (s : State) : Out := returnOk (.command cls cls.payload) s

/-- CMD.ERRFLAG: bit 7 is set, the payload carries a remote error code (30 R76). -/
def execCmdErrflag (opc : BitVec 7) (s : State) : Out := classified (.errFlag opc) s

/-- CMD.CUSTOM: the generic batched custom command (30 R74). -/
def execCmdCustom (s : State) : Out := classified .custom s

/-- CMD.GET (30 R74). -/
def execCmdGet (opc : BitVec 7) (s : State) : Out := whenDefined (inGetRange opc) (classified (.get opc) s)

/-- CMD.SET, the custom code excepted (30 R74). -/
def execCmdSet (opc : BitVec 7) (s : State) : Out := whenDefined (inSetRange opc) (classified (.set opc) s)

/-- CMD.UNASSIGNED: legal at the frame level, no payload format attached (30 R81). -/
def execCmdUnassigned (opc : BitVec 7) (s : State) : Out :=
  whenDefined (!inGetRange opc && !inSetRange opc && decide (opc ≠ customOp)) (classified (.unassigned opc) s)

end Sys2Proof.Machine
end

