-- ==== Sys2Proof/Machine/Control.lean ====
section
/-! DEFINITION. The control operations of the host: RESET (70 R270), DEC_RESET (40 R114), SET_TIMEOUT (10 R31). -/

namespace Sys2Proof.Machine

/-- The context is constructed with its master address: phase, ready flag and timeout as 10 R37 to R39 say, no
transaction in progress. The capture registers become free values, and so does every payload cell (10 R38, 93 U6;
log 14, log 15). The environment is as it was. -/
def State.construct (master : Byte) (s : State) : State :=
  { s with
    phase := .awaitHeader0
    ready := false
    masterAddr := master
    cmdTimeoutMs := Config.defaultTimeoutMs
    dest := Config.freeByte s.draws
    src := Config.freeByte (s.draws + 1)
    cmd := Config.freeByte (s.draws + 2)
    len := Config.freeByte (s.draws + 3)
    chk := Config.freeByte (s.draws + 4)
    pay := []
    wait := none
    result := none
    draws := s.draws + 5
    built := s.built + 1 }

/-- RESET: construction; a transaction in progress is abandoned without a result (70 R270, D31). -/
def execReset (master : Byte) (s : State) : Out := .next (s.construct master)

/-- DEC_RESET (40 R114). -/
def execDecReset (s : State) : Out := .next s.decoderReset

/-- SET_TIMEOUT (10 R31). -/
def execSetTimeout (ms : Nat) (s : State) : Out := .next (s.setTimeout ms)

end Sys2Proof.Machine
end

