-- ==== Sys2Proof/Machine/Receive.lean ====
section
/-! DEFINITION. The Frame Decoder (40): one meaning per transition, each where its row is selected, the dispatch of a
received byte, and FEED (30 R92). -/

namespace Sys2Proof.Machine

/-- The decoder takes bytes (`ready = 0`) and is in this phase. -/
def State.awaits (p : Phase) (s : State) : Bool := decide (s.ready = false ∧ s.phase = p)

/-- RXB.DISCARD: nothing changes, the byte is lost (40 R101). -/
def execRxbDiscard (_b : Byte) (s : State) : Out := whenSelected s.ready (.next s)

/-- RXB.H0.HIT (40 R102). -/
def execRxbH0Hit (s : State) : Out := whenSelected (s.awaits .awaitHeader0) (.next (s.setPhase .awaitHeader1))

/-- RXB.H0.MISS: the byte is skipped (40 R102). -/
def execRxbH0Miss (b : Byte) (s : State) : Out :=
  whenSelected (s.awaits .awaitHeader0 && decide (b ≠ header0)) (.next s)

/-- RXB.H1.HIT (40 R103). -/
def execRxbH1Hit (s : State) : Out := whenSelected (s.awaits .awaitHeader1) (.next (s.setPhase .awaitDestAddr))

/-- RXB.H1.MISS: the byte is consumed and not looked at again, also when it is HEADER0 (40 R103, 90 C1; log 23). -/
def execRxbH1Miss (b : Byte) (s : State) : Out :=
  whenSelected (s.awaits .awaitHeader1 && decide (b ≠ header1)) (.next (s.setPhase .awaitHeader0))

/-- RXB.DEST (40 R104). -/
def execRxbDest (b : Byte) (s : State) : Out :=
  whenSelected (s.awaits .awaitDestAddr) (.next ((s.setDest b).setPhase .awaitSrcAddr))

/-- RXB.SRC (40 R105). -/
def execRxbSrc (b : Byte) (s : State) : Out :=
  whenSelected (s.awaits .awaitSrcAddr) (.next ((s.setSrc b).setPhase .awaitCommand))

/-- RXB.CMD: captured, the error flag not tested (40 R106). -/
def execRxbCmd (b : Byte) (s : State) : Out :=
  whenSelected (s.awaits .awaitCommand) (.next ((s.setCmd b).setPhase .awaitLength))

/-- RXB.LEN.ZERO: no payload phase at all (40 R107 (a), D4). -/
def execRxbLenZero (s : State) : Out :=
  whenSelected (s.awaits .awaitLength) (.next ((s.setLen 0).setPhase .awaitChecksum))

/-- RXB.LEN.OK: `len <- b`, `rem <- b` (40 R107); the tag holds `rem - 1`. -/
def execRxbLenOk (b : Byte) (s : State) : Out :=
  whenSelected (s.awaits .awaitLength && decide (1 ≤ b.toNat ∧ b.toNat ≤ maxRxLen))
    (.next ((s.setLen b).setPhase (.awaitPayload (Fin.ofNat maxRxLen (b.toNat - 1)))))

/-- RXB.LEN.BAD: the frame is abandoned silently, `len` unchanged (40 R107 (c), (d), D29; log 34). -/
def execRxbLenBad (b : Byte) (s : State) : Out :=
  whenSelected (s.awaits .awaitLength && decide (maxRxLen < b.toNat)) (.next (s.setPhase .awaitHeader0))

/-- Store the awaited payload byte at `len - rem` (40 R109, R110). -/
def storePayload (left : Fin maxRxLen) (b : Byte) (s : State) : Out :=
  match s.payOffset left with
  | some off => .next (s.setPay (s.pay.write off b))
  | none => .fault .payOffset

/-- RXB.PAY.MORE: not the last payload byte, `rem <- rem - 1` (40 R109). -/
def execRxbPayMore (b : Byte) (s : State) : Out :=
  match s.phase with
  | .awaitPayload left =>
    whenSelected (decide (s.ready = false ∧ left ≠ 0))
      (andThen (storePayload left b s) fun t => .next (t.setPhase (.awaitPayload (left - 1))))
  | _ => .refused .notSelected

/-- RXB.PAY.LAST: the last payload byte (40 R110). -/
def execRxbPayLast (b : Byte) (s : State) : Out :=
  whenSelected (s.awaits (.awaitPayload 0))
    (andThen (storePayload 0 b s) fun t => .next (t.setPhase .awaitChecksum))

/-- RXB.CHK.ACCEPT: the checksum byte is stored and compared with nothing (40 R111, R113; log 34 for the phase). -/
def execRxbChkAccept (b : Byte) (s : State) : Out :=
  whenSelected (s.awaits .awaitChecksum && decide (s.dest = s.masterAddr))
    (.next (((s.setChk b).setReady true).setPhase .awaitHeader0))

/-- RXB.CHK.DROP: a frame for another address is dropped silently (40 R112). -/
def execRxbChkDrop (b : Byte) (s : State) : Out :=
  whenSelected (s.awaits .awaitChecksum && decide (s.dest ≠ s.masterAddr))
    (.next ((s.setChk b).setPhase .awaitHeader0))

/-- The meaning of a transition. The decoder of bytes answers no other instruction. -/
def runTransition (i : Instr) (s : State) : Out :=
  match i with
  | .rxbDiscard b => execRxbDiscard b s
  | .rxbH0Hit => execRxbH0Hit s
  | .rxbH0Miss b => execRxbH0Miss b s
  | .rxbH1Hit => execRxbH1Hit s
  | .rxbH1Miss b => execRxbH1Miss b s
  | .rxbDest b => execRxbDest b s
  | .rxbSrc b => execRxbSrc b s
  | .rxbCmd b => execRxbCmd b s
  | .rxbLenZero => execRxbLenZero s
  | .rxbLenOk b => execRxbLenOk b s
  | .rxbLenBad b => execRxbLenBad b s
  | .rxbPayMore b => execRxbPayMore b s
  | .rxbPayLast b => execRxbPayLast b s
  | .rxbChkAccept b => execRxbChkAccept b s
  | .rxbChkDrop b => execRxbChkDrop b s
  | _ => .refused .notSelected

/-- `RXB b`: the received byte executes the transition its decoding selects (40 R100). -/
def receive (b : Byte) (s : State) : Out := runTransition (decodeByte s.selector b) s

/-- `FEED [b0 ... bn]`: the bytes are received in order (30 R92). -/
def feed : List Byte → State → Out
  | [], s => .next s
  | b :: bs, s => andThen (receive b s) (feed bs)

/-- FRAME: one frame arrives whole; its bytes are received in order (30 R70, R92; log 3). -/
def execFrame (d src c : Byte) (payload : List Byte) (k : Byte) (s : State) : Out :=
  whenDefined (decide (payload.length ≤ maxRxLen)) (feed (frameBytes d src c payload k) s)

end Sys2Proof.Machine
end

