-- ==== Sys2Proof/Machine/Serialize.lean ====
section
/-! DEFINITION. The Frame Serializer (42): ENCODE and SEND. -/

namespace Sys2Proof.Machine

/-- The frame ENCODE builds, its checksum computed as CHECK recomputes it (42 R151). -/
def encodeFrame (d src c : Byte) (payload : List Byte) : List Byte :=
  frameBytes d src c payload (lrc d src c (BitVec.ofNat 8 payload.length) payload)

/-- ENCODE (42 R151), on payloads of at most 63 bytes. -/
def execEncode (d src c : Byte) (payload : List Byte) (s : State) : Out :=
  whenDefined (decide (payload.length ≤ maxTxLen)) (returnOk (.bytes (encodeFrame d src c payload)) s)

/-- SEND's tests before the transport, in the order of 42 R150: context, timer, payload size (R152, R153; log 32). -/
def State.sendError (s : State) (payload : List Byte) : Option Err :=
  if !s.ctxValid then some .invalidContext
  else if !s.timerOk then some .timerNotConfigured
  else if maxTxLen < payload.length then some .payloadTooLarge
  else none

/-- SEND's result, and the state with the frame handed over if the tests passed (42 R150, R154). -/
def transmit (target c : Byte) (payload : List Byte) (s : State) : Option Err × State :=
  match s.sendError payload with
  | some e => (some e, s)
  | none =>
    (if s.transportAnswer then none else some .transportFailure,
      s.handOver (encodeFrame target s.masterAddr c payload))

/-- SEND (42 R150): the decoder is neither read nor written (R156), the command byte is sent as given (R155). A second
SEND before the first one's AWAIT runs as any other: the block does not enforce the pairing (45 R228), and the model does
not either (log 40). -/
def execSend (target c : Byte) (payload : List Byte) (s : State) : Out :=
  match transmit target c payload s with
  | (none, t) => returnOk .unit t
  | (some e, t) => raise e t

end Sys2Proof.Machine
end

