-- ==== Sys2Proof/Machine/Transaction.lean ====
section
/-! DEFINITION. The transaction sequence (45): the AWAIT loop over the environment's answers to its polls, and the
typed operation OP. -/

namespace Sys2Proof.Machine

/-- What the call makes of CHECK's result: a typed operation unpacks an Ok payload, any error passes through
(45 R226, R230, R232). -/
def Wait.deliver (w : Wait) (r : Result) : Result :=
  match w.unpack, r with
  | some rsp, .ok (.bytes p) => unpackResponse rsp p
  | _, r => r

/-- The loop has ended with a ready frame: CHECK, and CHECK's result is the call's (45 R226). -/
def conclude (w : Wait) (s : State) : Out :=
  andThen (checkFrame w.target w.expCmd w.cap s) fun t =>
    .next ((t.setResult (t.result.map w.deliver)).setWait none)

/-- On expiry: DEC_RESET, and the result is Timeout (45 R225). -/
def expire (s : State) : Out := raise .timeout (s.decoderReset.setWait none)

/-- The timer's reading after an iteration: a drawn deadline has no clock value in it (45 R227; log 6). -/
def Deadline.reading (d : Deadline) (now : Nat) : Nat :=
  match d with
  | .drawn _ => now
  | .clock elapsedMs => now + elapsedMs

/-- The deadline test of an iteration that the timer's reading `now` precedes: the environment's draw (45 R227), or, under
a scripted clock, the reference comparison of elapsed time and the timeout of the call, where reaching it counts (45 R224,
D9; log 6). -/
def Wait.expired (w : Wait) (d : Deadline) (now : Nat) : Bool :=
  match d with
  | .drawn expired => expired
  | .clock elapsedMs => decide (w.timeoutMs ≤ now + elapsedMs - w.startTime)

/-- One iteration of the wait loop: the poll feeds the decoder, the timer is read, the deadline tested; if a ready
frame and the deadline coincide the environment chooses (45 R223, R224, R227; log 5). An expired iteration ends the loop,
so the draws of one call are monotone (45 R227). -/
def iterate (w : Wait) (bytes : List Byte) (deadline : Deadline) (keepFrame : Bool) (s : State) : Out :=
  andThen (feed bytes s) fun t =>
    let u := t.setNow (deadline.reading t.nowMs)
    if w.expired deadline t.nowMs then (if u.ready && keepFrame then conclude w u else expire u)
    else if u.ready then conclude w u
    else .next u

/-- The wait is cut short from outside: no result, no CHECK, no DEC_RESET (60 R246; log 7). -/
def abandon (s : State) : Out := .next ((s.setWait none).setResult none)

/-- The AWAIT in progress runs over the lines at the head of the script that answer its polls. When they are used up
and the loop has not ended, the call is still in progress (`wait` holds it) and the rest of the script stands (log 8). A
frame that an RXB or FRAME line made ready since belongs to the iteration of the next POLL line, whose deadline test
still comes (log 42). -/
def awaitLines : List Line → State → Out
  | .poll bytes deadline keep :: rest, s =>
    match s.wait with
    | some w => andThen (iterate w bytes deadline keep s) (awaitLines rest)
    | none => .next (s.setScript (.poll bytes deadline keep :: rest))
  | .abort :: rest, s =>
    match s.wait with
    | some _ => abandon (s.setScript rest)
    | none => .next (s.setScript (.abort :: rest))
  | .rxb b :: rest, s => .next (s.setScript (.rxb b :: rest))
  | .call i :: rest, s => .next (s.setScript (.call i :: rest))
  | [], s => .next (s.setScript [])

/-- Enter the wait: a frame that is ready already is checked at once, with no poll and no deadline test (45 R221,
R222). -/
def enterWait (w : Wait) (s : State) : Out :=
  let t := (s.setWait (some w)).setResult none
  if t.ready then conclude w t else awaitLines t.script t

/-- AWAIT (45 R220). -/
def execAwait (target expCmd : Byte) (timeoutMs cap : Nat) (s : State) : Out :=
  enterWait ⟨target, expCmd, s.nowMs, timeoutMs, cap, none⟩ s

/-- OP: pack, SEND, AWAIT with the timeout register, unpack; the first error ends it (45 R230 to R232). -/
def execOp (target c : Byte) (req : Request) (cap : Nat) (rsp : Response) (s : State) : Out :=
  whenDefined (req.inDomain && layoutsAllowed c req rsp)
    (match transmit target c (packRequest req) s with
      | (none, t) => enterWait ⟨target, c, t.nowMs, t.cmdTimeoutMs, cap, some rsp⟩ t
      | (some e, t) => raise e t)

end Sys2Proof.Machine
end

