-- ==== Sys2Proof/Machine/Dispatch.lean ====
section
/-! DEFINITION. The dispatch: one arm per instruction, in the order of spec/opcode_table.json. -/

namespace Sys2Proof.Machine

def exec (i : Instr) (s : State) : Host.Outcome State Fault Refusal :=
  match i with
  | .rxbDiscard b => Sys2Proof.Machine.execRxbDiscard b s
  | .rxbH0Hit => Sys2Proof.Machine.execRxbH0Hit s
  | .rxbH0Miss b => Sys2Proof.Machine.execRxbH0Miss b s
  | .rxbH1Hit => Sys2Proof.Machine.execRxbH1Hit s
  | .rxbH1Miss b => Sys2Proof.Machine.execRxbH1Miss b s
  | .rxbDest b => Sys2Proof.Machine.execRxbDest b s
  | .rxbSrc b => Sys2Proof.Machine.execRxbSrc b s
  | .rxbCmd b => Sys2Proof.Machine.execRxbCmd b s
  | .rxbLenZero => Sys2Proof.Machine.execRxbLenZero s
  | .rxbLenOk b => Sys2Proof.Machine.execRxbLenOk b s
  | .rxbLenBad b => Sys2Proof.Machine.execRxbLenBad b s
  | .rxbPayMore b => Sys2Proof.Machine.execRxbPayMore b s
  | .rxbPayLast b => Sys2Proof.Machine.execRxbPayLast b s
  | .rxbChkAccept b => Sys2Proof.Machine.execRxbChkAccept b s
  | .rxbChkDrop b => Sys2Proof.Machine.execRxbChkDrop b s
  | .reset master => Sys2Proof.Machine.execReset master s
  | .decReset => Sys2Proof.Machine.execDecReset s
  | .check target expCmd cap => Sys2Proof.Machine.execCheck target expCmd cap s
  | .send target command payload => Sys2Proof.Machine.execSend target command payload s
  | .encode d src c payload => Sys2Proof.Machine.execEncode d src c payload s
  | .await target expCmd timeoutMs cap => Sys2Proof.Machine.execAwait target expCmd timeoutMs cap s
  | .setTimeout ms => Sys2Proof.Machine.execSetTimeout ms s
  | .op target c req cap rsp => Sys2Proof.Machine.execOp target c req cap rsp s
  | .packU8 v => Sys2Proof.Machine.execPackU8 v s
  | .unpackU8 bs a => Sys2Proof.Machine.execUnpackU8 bs a s
  | .packU16 v => Sys2Proof.Machine.execPackU16 v s
  | .unpackU16 bs a => Sys2Proof.Machine.execUnpackU16 bs a s
  | .packS16 v => Sys2Proof.Machine.execPackS16 v s
  | .unpackS16 bs a => Sys2Proof.Machine.execUnpackS16 bs a s
  | .packF32 w => Sys2Proof.Machine.execPackF32 w s
  | .unpackF32 bs a => Sys2Proof.Machine.execUnpackF32 bs a s
  | .raw payload => Sys2Proof.Machine.execRaw payload s
  | .packPid pTerm iTerm dTerm gTerm => Sys2Proof.Machine.execPackPid pTerm iTerm dTerm gTerm s
  | .unpackPid bs a => Sys2Proof.Machine.execUnpackPid bs a s
  | .packAllSet reading motors => Sys2Proof.Machine.execPackAllSet reading motors s
  | .unpackAllGet reading payload cap => Sys2Proof.Machine.execUnpackAllGet reading payload cap s
  | .unpackCali payload capMotors capThumb => Sys2Proof.Machine.execUnpackCali payload capMotors capThumb s
  | .packCustom mask n speed position angle => Sys2Proof.Machine.execPackCustom mask n speed position angle s
  | .unpackCustom mask payload cap => Sys2Proof.Machine.execUnpackCustom mask payload cap s
  | .frame d src command payload k => Sys2Proof.Machine.execFrame d src command payload k s
  | .cmdErrflag opc => Sys2Proof.Machine.execCmdErrflag opc s
  | .cmdCustom => Sys2Proof.Machine.execCmdCustom s
  | .cmdGet opc => Sys2Proof.Machine.execCmdGet opc s
  | .cmdSet opc => Sys2Proof.Machine.execCmdSet opc s
  | .cmdUnassigned opc => Sys2Proof.Machine.execCmdUnassigned opc s

end Sys2Proof.Machine
end

