-- ==== Sys2Proof/Machine/Script.lean ====
section
/-! DEFINITION. Running one line of the stimulus script (30 R91, R92), and placing an instruction where the next step
fetches it. -/

namespace Sys2Proof.Machine

/-- What may happen while the host is inside AWAIT: deliveries to the decoder, and the two operations the spec admits
there, RESET (70 R270) and SET_TIMEOUT (10 R31). -/
def duringWait : Instr → Bool
  | .rxbDiscard _ | .rxbH0Hit | .rxbH0Miss _ | .rxbH1Hit | .rxbH1Miss _ | .rxbDest _ | .rxbSrc _ | .rxbCmd _
  | .rxbLenZero | .rxbLenOk _ | .rxbLenBad _ | .rxbPayMore _ | .rxbPayLast _ | .rxbChkAccept _ | .rxbChkDrop _
  | .frame _ _ _ _ _ | .reset _ | .setTimeout _ => true
  | _ => false

/-- One line, already taken off the script. A received byte is decoded (40 R100); a POLL or an abort belongs to the
AWAIT in progress (45 R223, 60 R246); a called operation is applied if it is well formed and the host is free to call
it (20 R61, 70 R280, 93 U15; log 8). Bytes may arrive whether an AWAIT runs or not: scripts that deliver them outside one,
as the vectors do, are admitted (30 R91, 45 R229; log 39), and so is a second SEND before an AWAIT (log 40). -/
def runLine (l : Line) (s : State) : Out :=
  match l with
  | .rxb b => exec (decodeByte s.selector b) s
  | .poll bytes deadline keep =>
    if s.wait.isSome then awaitLines (.poll bytes deadline keep :: s.script) s else .refused .noWaitRunning
  | .abort => if s.wait.isSome then abandon s else .refused .noWaitRunning
  | .call i =>
    if !i.wellFormed then .refused .illFormed
    else if s.wait.isSome && !duringWait i then .refused .hostWaiting
    else exec i s

/-- Place the instruction a word of the opcode table encodes as the next line, with the selection its row needs: for a
transition the byte itself and the phase, the decoder's program counter (10 R21), for any other a call by a host that
is not waiting (log 2). -/
def placeWord (s : State) (nbits w : Nat) : State :=
  match tablePort nbits w, decodeTableWord nbits w with
  | some (.byte sel), some _ =>
    { s with ready := sel.ready, phase := sel.phase, script := .rxb (BitVec.ofNat 8 (w % 2 ^ nbits)) :: s.script }
  | some _, some i => { s with wait := none, script := .call i :: s.script }
  | _, _ => s

end Sys2Proof.Machine
end

