-- ==== Sys2Proof/Machine/Step.lean ====
section
/-! DEFINITION. The step: the next line of the script is taken and run; with no line left the block is idle and holds
its state (60 R254, 70 R295). -/

namespace Sys2Proof.Machine

/-- One step. -/
def step (s : State) : Host.Outcome State Fault Refusal :=
  match s.script with
  | [] => .next s
  | l :: rest => runLine l (s.setScript rest)

/-- The state with the instruction of an opcode-table word placed where the next step fetches (log 1, log 2). -/
def State.withFetchWord (s : State) (nbits w : Nat) : State := placeWord s nbits w

end Sys2Proof.Machine
end

