-- ==== Sys2Proof/Safety.lean ====
section
/-! DEFINITION. What claims are stated in: the invariant of the decoder's registers (10 R22, R28), and which part of the
state an operation leaves alone (60 R250). -/

namespace Sys2Proof.Machine

/-- Every cell below `n` holds a byte that was received, not the free value of an unwritten cell. -/
def State.storedBelow (s : State) (n : Nat) : Bool := (List.range n).all fun a => (s.pay.read a).isSome

/-- What the phase promises of `len` and the payload stored so far: in AwaitPayload `1 ≤ rem ≤ len ≤ 64` and the
`len - rem` bytes before the awaited one are stored (10 R22, R23); in AwaitChecksum all `len` of them are. -/
def State.phaseOk (s : State) : Bool :=
  match s.phase with
  | .awaitPayload left =>
    decide (left.val + 1 ≤ s.len.toNat ∧ s.len.toNat ≤ payCells)
      && s.storedBelow (s.len.toNat - (left.val + 1))
  | .awaitChecksum => decide (s.len.toNat ≤ payCells) && s.storedBelow s.len.toNat
  | _ => true

/-- What a ready frame promises (10 R28). -/
def State.readyOk (s : State) : Bool :=
  decide (s.phase = .awaitHeader0 ∧ s.dest = s.masterAddr ∧ s.len.toNat ≤ payCells) && s.storedBelow s.len.toNat

/-- The invariant: the payload buffer is in its canonical form, and phase and ready flag keep their promises. -/
abbrev State.Inv (s : State) : Prop :=
  s.pay.wf = true ∧ s.phaseOk = true ∧ (s.ready = true → s.readyOk = true)

/-- `t` differs from `s` in the decoder's registers at most (10 R20): configuration, call in progress, result, ports
and draws are the same. -/
def DecoderOnly (s t : State) : Prop :=
  t = { s with
    phase := t.phase, dest := t.dest, src := t.src, cmd := t.cmd, len := t.len, chk := t.chk, pay := t.pay,
    ready := t.ready }

/-- The decoder's registers are the same in `s` and `t` (10 R20). -/
structure DecoderSame (s t : State) : Prop where
  phase : t.phase = s.phase
  dest : t.dest = s.dest
  src : t.src = s.src
  cmd : t.cmd = s.cmd
  len : t.len = s.len
  chk : t.chk = s.chk
  pay : t.pay = s.pay
  ready : t.ready = s.ready

/-- The operations that have no access to the decoder's registers (60 R250): the serializer, the codec, the command
classes and SET_TIMEOUT. -/
def leavesDecoder : Instr → Bool
  | .send _ _ _ | .encode _ _ _ _ | .setTimeout _ => true
  | .packU8 _ | .unpackU8 _ _ | .packU16 _ | .unpackU16 _ _ | .packS16 _ | .unpackS16 _ _ | .packF32 _
  | .unpackF32 _ _ => true
  | .raw _ | .packPid _ _ _ _ | .unpackPid _ _ | .packAllSet _ _ | .unpackAllGet _ _ _ | .unpackCali _ _ _
  | .packCustom _ _ _ _ _ | .unpackCustom _ _ _ => true
  | .cmdErrflag _ | .cmdCustom | .cmdGet _ | .cmdSet _ | .cmdUnassigned _ => true
  | _ => false

/-- The answers of the environment to the polls of one AWAIT: what each delivers, how the deadline is found, and the
choice should frame and deadline coincide (45 R223, R227). -/
abbrev Polls := List (List Byte × Deadline × Bool)

/-- Such answers as script lines. -/
def pollLines (polls : Polls) : List Line := polls.map fun q => .poll q.1 q.2.1 q.2.2

/-- All the bytes such answers deliver, in order (20 R62). -/
def pollBytes (polls : Polls) : List Byte := polls.flatMap fun q => q.1

/-- The timer's reading after all of them. -/
def readingAfter (now : Nat) (polls : Polls) : Nat := polls.foldl (fun n q => q.2.1.reading n) now

/-- None of them finds the deadline of the call reached. -/
def inTime (w : Wait) : Nat → Polls → Bool
  | _, [] => true
  | now, q :: polls => !w.expired q.2.1 now && inTime w (q.2.1.reading now) polls

/-- A line that answers an AWAIT in progress (45 R223, 60 R246). -/
def answersWait : Line → Bool
  | .poll _ _ _ | .abort => true
  | .rxb _ | .call _ => false

/-- The state with the result of a finished operation and nothing else changed (60 R240). -/
def State.giving (r : Result) (s : State) : State := { s with result := some r }

end Sys2Proof.Machine
end

