-- ==== Sys2Proof/Certificates/Slice0/Obligations.lean ====
section
/-! DEFINITION. The statements about the machine, from the numbered rules of spec/. Each docstring names the rules. Where
a statement rests on a choice of the model or on what the spec marks as its own decision or inference, it says so. -/

open Sys2Proof Sys2Proof.Machine

/-! ### Encoding -/

/-- For every instruction that has an encoding (transitions, FRAME, CMD; 30 R93), at every operand value the encoding
admits: decoding its bytes, at the place they are decoded at, gives it back with the bytes after it (30 R70, R74, R84;
40 R100). The places are the model's (log 2). -/
def Obligations.DecodingAnEncodingGivesTheInstructionBack : Prop :=
  ∀ (i : Instr) (port : Port) (bs rest : List Byte), i.WellFormed → i.readAt port = true → encode i = some bs →
    decode port (bs ++ rest) = .ok (i, rest)

/-- Whatever decodes is well formed, belongs to the place it was decoded at, and is encoded by exactly the bytes that
were taken (30 R70, R74; 40 R100; log 2). -/
def Obligations.DecodedBytesAreTheInstructionsEncoding : Prop :=
  ∀ (port : Port) (bs : List Byte) (i : Instr) (rest : List Byte), decode port bs = .ok (i, rest) →
    i.WellFormed ∧ i.readAt port = true ∧ ∃ e, encode i = some e ∧ bs = e ++ rest

/-- 40 R100: for every state (ready, phase, dest = MASTER_ADDR) and every byte exactly one row of the opcode table
applies, and it is the one the decoder chooses. -/
def Obligations.EveryByteSelectsExactlyOneTransition : Prop :=
  ∀ (sel : Selector) (b : Byte) (i : Instr),
    (i.WellFormed ∧ i.selectedBy sel = true ∧ encode i = some [b]) ↔ i = decodeByte sel b

/-- Words written out from the opcode table and 30 R70, R74 decode to the rows they stand for (a sanity statement). -/
def Obligations.WrittenOutWordsDecode : Prop :=
  decode (.byte ⟨false, .awaitHeader0, false⟩) [0b01010101] = .ok (.rxbH0Hit, []) ∧
  decode (.byte ⟨false, .awaitHeader1, false⟩) [0b10101010] = .ok (.rxbH1Hit, []) ∧
  decode (.byte ⟨false, .awaitHeader1, false⟩) [0b01010101] = .ok (.rxbH1Miss 0x55, []) ∧
  decode (.byte ⟨false, .awaitLength, false⟩) [0b01000000] = .ok (.rxbLenOk 64, []) ∧
  decode (.byte ⟨false, .awaitLength, false⟩) [0b01000001] = .ok (.rxbLenBad 65, []) ∧
  decode .frame [0x55, 0xAA, 0x01, 0x02, 0x01, 0x02, 0x34, 0x12, 0x26] = .ok (.frame 1 2 1 [0x34, 0x12] 0x26, []) ∧
  decode .command [0b11000101] = .ok (.cmdErrflag 0x45, []) ∧
  decode .command [0b01011111] = .ok (.cmdCustom, []) ∧
  decode .command [0b00100110] = .ok (.cmdUnassigned 0x26, [])

/-! ### The step -/

/-- A word of the opcode table that the decoder reads, placed where the next step fetches, is run by that step: the step
is exec of the instruction read, on the state with nothing changed but the selection its row needs (log 1, log 2). -/
def Obligations.TableWordRunsAsTheNextStep : Prop :=
  ∀ (s : State) (nbits w : Nat) (i : Instr), decodeTableWord nbits w = some i →
    ∃ ready phase wait, (s.withFetchWord nbits w).pay = s.pay ∧
      step (s.withFetchWord nbits w) = exec i { s with ready := ready, phase := phase, wait := wait }

/-- A byte at the head of the script is decoded by the decoder's state and the step is exec of the transition it
selects (40 R100, 30 R91; log 1). -/
def Obligations.StepRunsTheReceivedByte : Prop :=
  ∀ (s : State) (b : Byte) (rest : List Line), s.script = .rxb b :: rest →
    step s = exec (decodeByte s.selector b) { s with script := rest }

/-- A well-formed operation at the head of the script, called by a host that is not waiting: the step is exec of it;
an ill-formed one is refused by name (30 R91; log 1). -/
def Obligations.StepRunsTheCalledOperation : Prop :=
  ∀ (s : State) (i : Instr) (rest : List Line), s.script = .call i :: rest → s.wait = none →
    (i.WellFormed → step s = exec i { s with script := rest }) ∧ (¬ i.WellFormed → step s = .refused .illFormed)

/-- While the host is inside AWAIT it may only RESET (70 R270) or SET_TIMEOUT (10 R31); frames may arrive; any other
operation is refused by name (70 R280, 93 U15; log 8, the model's choice of a refusal). -/
def Obligations.WaitingHostMayOnlyResetOrSetTheTimeout : Prop :=
  ∀ (s : State) (i : Instr) (rest : List Line), s.script = .call i :: rest → s.wait.isSome = true → i.WellFormed →
    (((∃ m, i = .reset m) ∨ (∃ ms, i = .setTimeout ms) ∨ (∃ d src c p k, i = .frame d src c p k)) →
      step s = exec i { s with script := rest }) ∧
    (((∃ t e cap, i = .check t e cap) ∨ (∃ t c p, i = .send t c p) ∨ (∃ t e ms cap, i = .await t e ms cap) ∨
        (∃ t c req cap rsp, i = .op t c req cap rsp) ∨ i = .decReset) →
      step s = .refused .hostWaiting)

/-- 60 R254: with nothing to do the block is idle and holds its state. An AWAIT in progress, held in the state (log 8),
goes on at its next line. An abort ends it with no result and the decoder as it was (60 R246; log 7). A POLL delivers its
bytes and then tests the deadline, by the environment's draw or by the reference comparison of a scripted clock (45 R223,
R224, R227; the comparison by decision D9, log 6): with no frame and the deadline not reached the wait goes on, at the
line behind if that answers it; at the deadline it ends with Timeout and the decoder reset, unless a frame is ready and
the environment keeps it (log 5); otherwise a ready frame ends it with CHECK's result, unpacked if the call is a typed
operation's (45 R226, R230). -/
def Obligations.IdleOrWaitingBlockGoesOnAtItsNextLine : Prop :=
  ∀ s : State, (s.script = [] → step s = .next s) ∧
    ∀ (w : Wait) (rest : List Line), s.wait = some w →
      (s.script = .abort :: rest → step s = .next { s with wait := none, result := none, script := rest }) ∧
      ∀ (bs : List Byte) (d : Deadline) (keep : Bool) (t : State),
        s.script = .poll bs d keep :: rest → feed bs s = .next t →
        let expired : Bool := match d with
          | .drawn e => e
          | .clock ms => decide (w.timeoutMs ≤ s.nowMs + ms - w.startTime)
        let now : Nat := match d with
          | .drawn _ => s.nowMs
          | .clock ms => s.nowMs + ms
        let u : State := { t with nowMs := now, script := rest }
        (expired = false → t.ready = false →
          step s = if rest.head?.any answersWait then step u else .next u) ∧
        (expired = true → (t.ready && keep) = false → step s = .next { u with
          phase := .awaitHeader0, ready := false, wait := none, result := some (.err .timeout) }) ∧
        ∀ p, t.payload = some p → t.ready = true → expired = false ∨ keep = true →
          ∃ v, exec (.check w.target w.expCmd w.cap) { u with wait := none } = .next v ∧
            step s = .next { v with result := v.result.map w.deliver }

/-! ### The Frame Decoder -/

/-- 40 R101: while a frame is ready a byte changes nothing. -/
def Obligations.ByteIsDiscardedWhileAFrameIsReady : Prop :=
  ∀ (s : State) (b : Byte), s.ready = true →
    decodeByte s.selector b = .rxbDiscard b ∧ exec (.rxbDiscard b) s = .next s

/-- 40 R102, R103: the header search. A byte other than 0xAA after 0x55, 0x55 included, sends the decoder back to
AwaitHeader0 and is not looked at again. -/
def Obligations.HeaderBytesMustAppearInOrder : Prop :=
  ∀ (s : State) (b : Byte), s.ready = false →
    (s.phase = .awaitHeader0 →
      decodeByte s.selector 0x55 = .rxbH0Hit ∧ exec .rxbH0Hit s = .next { s with phase := .awaitHeader1 }) ∧
    (s.phase = .awaitHeader0 → b ≠ 0x55 → decodeByte s.selector b = .rxbH0Miss b ∧ exec (.rxbH0Miss b) s = .next s) ∧
    (s.phase = .awaitHeader1 →
      decodeByte s.selector 0xAA = .rxbH1Hit ∧ exec .rxbH1Hit s = .next { s with phase := .awaitDestAddr }) ∧
    (s.phase = .awaitHeader1 → b ≠ 0xAA →
      decodeByte s.selector b = .rxbH1Miss b ∧ exec (.rxbH1Miss b) s = .next { s with phase := .awaitHeader0 })

/-- 40 R104 to R106: destination, source and command are captured unchanged, in that order, and nothing else moves. -/
def Obligations.FixedFieldsAreCapturedInOrder : Prop :=
  ∀ (s : State) (b : Byte), s.ready = false →
    (s.phase = .awaitDestAddr → decodeByte s.selector b = .rxbDest b ∧
      exec (.rxbDest b) s = .next { s with dest := b, phase := .awaitSrcAddr }) ∧
    (s.phase = .awaitSrcAddr → decodeByte s.selector b = .rxbSrc b ∧
      exec (.rxbSrc b) s = .next { s with src := b, phase := .awaitCommand }) ∧
    (s.phase = .awaitCommand → decodeByte s.selector b = .rxbCmd b ∧
      exec (.rxbCmd b) s = .next { s with cmd := b, phase := .awaitLength })

/-- 40 R107: length 0 goes straight to the checksum, 1 to 64 opens the payload with `rem = b`, above 64 abandons the
frame silently. That `len` is unchanged then is the spec's decision D29 (log 34), and the zero case its derivation. -/
def Obligations.LengthByteOpensOrAbandonsTheFrame : Prop :=
  ∀ (s : State) (b : Byte), s.ready = false → s.phase = .awaitLength →
    exec .rxbLenZero s = .next { s with len := 0, phase := .awaitChecksum } ∧
    (1 ≤ b.toNat → b.toNat ≤ 64 → ∃ left : Fin 64, left.val + 1 = b.toNat ∧
      exec (.rxbLenOk b) s = .next { s with len := b, phase := .awaitPayload left }) ∧
    (64 < b.toNat → exec (.rxbLenBad b) s = .next { s with phase := .awaitHeader0 })

/-- 40 R109, R110: a payload byte goes to cell `len - rem` and to no other; `rem` counts down, and after the last one
the checksum is awaited. (`rem` is `left + 1`, log 18.) -/
def Obligations.PayloadBytesAreStoredAtTheirOffset : Prop :=
  ∀ (s : State) (b : Byte) (left : Fin 64), s.ready = false → s.phase = .awaitPayload left →
    left.val + 1 ≤ s.len.toNat → s.len.toNat ≤ 64 →
    ∃ m : Memory, ({ s with pay := m } : State).cell (s.len.toNat - (left.val + 1)) = some b ∧
      (∀ a, a ≠ s.len.toNat - (left.val + 1) → ({ s with pay := m } : State).cell a = s.cell a) ∧
      (left ≠ 0 → decodeByte s.selector b = .rxbPayMore b ∧ ∃ left' : Fin 64, left'.val + 1 = left.val ∧
        exec (.rxbPayMore b) s = .next { s with pay := m, phase := .awaitPayload left' }) ∧
      (left = 0 → decodeByte s.selector b = .rxbPayLast b ∧
        exec (.rxbPayLast b) s = .next { s with pay := m, phase := .awaitChecksum })

/-- 40 R111, R112: the checksum byte is stored unchecked; the frame becomes ready exactly when `dest = MASTER_ADDR`, and
is dropped otherwise. The phase after an accepted frame is the spec's decision D3, and that a dropped frame's checksum
is stored its own choice (log 34). -/
def Obligations.ChecksumByteAcceptsOrDropsTheFrame : Prop :=
  ∀ (s : State) (b : Byte), s.ready = false → s.phase = .awaitChecksum →
    (s.dest = s.masterAddr →
      exec (.rxbChkAccept b) s = .next { s with chk := b, ready := true, phase := .awaitHeader0 }) ∧
    (s.dest ≠ s.masterAddr → exec (.rxbChkDrop b) s = .next { s with chk := b, phase := .awaitHeader0 })

/-- 40 R100: in every state that meets the invariant every byte executes its transition: the decoder never blocks, never
faults and never refuses a byte; it keeps the invariant and writes decoder registers only. -/
def Obligations.EveryByteIsTakenByTheDecoder : Prop :=
  ∀ (s : State) (b : Byte), s.Inv →
    ∃ t, exec (decodeByte s.selector b) s = .next t ∧ t.Inv ∧ DecoderOnly s t

/-- 40 R100: a transition has no effect in a state that does not select its row; the model refuses it by name (log 19). -/
def Obligations.TransitionsRunOnlyWhereSelected : Prop :=
  ∀ (s : State) (i : Instr) (sel : Selector), i.selectedBy sel = true → i.selectedBy s.selector = false →
    exec i s = .refused .notSelected

/-- 40 R116: what the bytes do does not depend on how they are cut into polls, link frames or calls (the spec derives
it). -/
def Obligations.FeedingIsIndependentOfFragmentation : Prop :=
  ∀ (s : State) (xs ys : List Byte), feed (xs ++ ys) s = andThen (feed xs s) (feed ys)

/-- 40 R101, 70 R282: while a frame is ready any number of bytes leaves the whole state as it is. -/
def Obligations.ReadyFrameOutlastsEveryLaterByte : Prop :=
  ∀ (s : State) (bs : List Byte), s.ready = true → feed bs s = .next s

/-- 40 R102: in AwaitHeader0 every byte other than 0x55 is skipped without trace, however many there are. -/
def Obligations.BytesBeforeAHeaderAreSkipped : Prop :=
  ∀ (s : State) (bs : List Byte), s.ready = false → s.phase = .awaitHeader0 → (∀ b ∈ bs, b ≠ 0x55) →
    feed bs s = .next s

/-- 40 R103, 70 R288 (90 C1): an even number of bytes 0x55 before a frame is lost in pairs, so the 0xAA that follows
starts nothing; an odd number ends in AwaitDestAddr. -/
def Obligations.DoubledHeaderByteLosesTheFrame : Prop :=
  ∀ (s : State) (n : Nat) (bs : List Byte), s.ready = false → s.phase = .awaitHeader0 →
    feed (List.replicate (2 * n) 0x55 ++ 0xAA :: bs) s = feed bs s ∧
    feed (List.replicate (2 * n + 1) 0x55 ++ 0xAA :: bs) s = feed bs { s with phase := .awaitDestAddr }

/-- 40 R104 to R112, 10 R28: a frame that arrives whole at a searching decoder is captured byte for byte, its checksum
unchecked; it becomes ready exactly when it is addressed to the master; cells beyond its payload keep their content,
and nothing but decoder registers moves. (That FRAME, as an instruction, is this arrival: log 3. The phase after an
accepted frame is the spec's decision D3, and that a dropped frame's checksum byte is stored its own choice, R112 (a):
log 34.) -/
def Obligations.FrameIsCapturedWhole : Prop :=
  ∀ (s : State) (d src c k : Byte) (p : List Byte), s.ready = false → s.phase = .awaitHeader0 → p.length ≤ 64 →
    ∃ t, exec (.frame d src c p k) s = .next t ∧ DecoderOnly s t ∧ t.phase = .awaitHeader0 ∧
      t.dest = d ∧ t.src = src ∧ t.cmd = c ∧ t.len.toNat = p.length ∧ t.chk = k ∧ t.payload = some p ∧
      (∀ a, p.length ≤ a → t.cell a = s.cell a) ∧ (t.ready = true ↔ d = s.masterAddr)

/-- 40 R117: encoding then decoding reproduces the identical command and payload, and the recomputed checksum is the
transmitted one. -/
def Obligations.EncodedFrameRoundTripsThroughTheDecoder : Prop :=
  ∀ (s : State) (d src c : Byte) (p : List Byte), p.length ≤ 63 → s.ready = false → s.phase = .awaitHeader0 →
    s.masterAddr = d →
    ∃ bs t, exec (.encode d src c p) s = .next (s.giving (.ok (.bytes bs))) ∧ feed bs s = .next t ∧
      t.phase = .awaitHeader0 ∧ t.ready = true ∧ t.cmd = c ∧ t.len.toNat = p.length ∧ t.payload = some p ∧
      t.dest ^^^ t.src ^^^ t.cmd ^^^ t.len ^^^ p.foldl (· ^^^ ·) 0 = t.chk

/-- 41 R141: of a frame addressed to the master, changing one payload byte, the source, the command or the checksum byte
before it is fed makes every CHECK answer BadChecksum. (The source says it of payload bytes; the rest is the spec's
derivation.) -/
def Obligations.SingleByteCorruptionIsReported : Prop :=
  ∀ (s : State) (src c : Byte) (p : List Byte) (target e : Byte) (cap : Nat),
    p.length ≤ 63 → s.ready = false → s.phase = .awaitHeader0 →
    let good := lrc s.masterAddr src c (BitVec.ofNat 8 p.length) p
    let reports (bs : List Byte) : Prop :=
      ∃ t u, feed bs s = .next t ∧ exec (.check target e cap) t = .next u ∧ u.result = some (.err .badChecksum)
    (∀ (j : Nat) (v : Byte) (h : j < p.length), v ≠ p[j] → reports (frameBytes s.masterAddr src c (p.set j v) good)) ∧
    (∀ src', src' ≠ src → reports (frameBytes s.masterAddr src' c p good)) ∧
    (∀ c', c' ≠ c → reports (frameBytes s.masterAddr src c' p good)) ∧
    (∀ k, k ≠ good → reports (frameBytes s.masterAddr src c p k))

/-- 40 R114: DEC_RESET restores the phase and the ready flag and leaves every other register unchanged. -/
def Obligations.DecResetRestoresPhaseAndReady : Prop :=
  ∀ s : State, exec .decReset s = .next { s with phase := .awaitHeader0, ready := false }

/-! ### The Frame Check unit -/

/-- 41 R134: checksum, error flag, source address, command, capacity, in that order; the first that fails gives the
result, and CHECK completes on every ready frame whose span is readable. (The result of each test is R132 to R138's; the
remote code of a payload shorter than 2 is the next statement's free value.) -/
def Obligations.CheckAppliesItsTestsInOrder : Prop :=
  ∀ (s : State) (target e : Byte) (cap : Nat) (p : List Byte), s.ready = true → s.payload = some p →
    ∃ u, exec (.check target e cap) s = .next u ∧
      let bad := s.dest ^^^ s.src ^^^ s.cmd ^^^ s.len ^^^ p.foldl (· ^^^ ·) 0 ≠ s.chk
      let err := s.cmd.getLsbD 7 = true
      let addr := target ≠ 0xFF ∧ s.src ≠ target
      let cmd := s.cmd &&& 0x7F ≠ e
      (bad → u.result = some (.err .badChecksum)) ∧
      (¬ bad → err → ∃ code, u.result = some (.err (.remoteError code)) ∧ ∀ h : 1 < p.length, code = p[1]) ∧
      (¬ bad → ¬ err → addr → u.result = some (.err .unmatchedAddress)) ∧
      (¬ bad → ¬ err → ¬ addr → cmd → u.result = some (.err .unmatchedCommand)) ∧
      (¬ bad → ¬ err → ¬ addr → ¬ cmd → cap < p.length → u.result = some (.err .bufferTooSmall)) ∧
      (¬ bad → ¬ err → ¬ addr → ¬ cmd → p.length ≤ cap → u.result = some (.ok (.bytes p)))

/-- 41 R133 (c), 93 U1: an error frame with fewer than two payload bytes reports a remote error whose code is a free
value, the byte of this draw; nothing is known of it (the spec's decision D7; log 16). -/
def Obligations.CheckOfAShortErrorFrameReportsAFreeCode : Prop :=
  ∀ (s : State) (target e : Byte) (cap : Nat) (p : List Byte), s.ready = true → s.payload = some p →
    s.spanLrc p = s.chk → s.cmd.getLsbD 7 = true → p.length < 2 →
    ∃ u, exec (.check target e cap) s = .next u ∧
      u.result = some (.err (.remoteError (Config.freeByte s.draws)))

/-- 41 R131, R139, R140: whatever its result CHECK clears `ready` and writes no other register of the block, and a
second CHECK is refused. (For three of the errors R131 is the spec's decision D8, log 22; the refusal likewise, log 21;
R140 is its derivation.) -/
def Obligations.CheckConsumesTheFrameWhateverTheResult : Prop :=
  ∀ (s : State) (target e : Byte) (cap : Nat),
    (s.ready = false → exec (.check target e cap) s = .refused .checkNotReady) ∧
    ∀ u, exec (.check target e cap) s = .next u →
      u = { s with ready := false, result := u.result, draws := u.draws } ∧ u.result ≠ none ∧
      ∀ target' e' cap', exec (.check target' e' cap') u = .refused .checkNotReady

/-- 10 R28, 41 R130: in every state that meets the invariant a ready frame can be checked, whatever the operands. -/
def Obligations.ReadyFrameCanAlwaysBeChecked : Prop :=
  ∀ (s : State) (target e : Byte) (cap : Nat), s.Inv → s.ready = true →
    ∃ u, exec (.check target e cap) s = .next u ∧ u.Inv ∧ u.phase = .awaitHeader0

/-- 41 R135 (a), R136 (b): with target 0xFF no source address is a mismatch, and an expected command above 0x7F never
matches (the latter by the spec's derivation). -/
def Obligations.CheckWildcardAndCommandCorners : Prop :=
  ∀ (s u : State) (target e : Byte) (cap : Nat), exec (.check target e cap) s = .next u →
    (target = 0xFF → u.result ≠ some (.err .unmatchedAddress)) ∧
    (0x7F < e.toNat → ∀ v, u.result ≠ some (.ok v))

/-! ### The Frame Serializer -/

/-- 42 R150, R152, R154 (the meaning and place of its first two tests are the spec's decisions D10, D11; log 10,
log 32): the first failure is the result, with nothing sent; with none the one frame, the bytes of R151, is handed to the
transport, and the transport's answer decides between Ok and TransportFailure. Nothing else changes. -/
def Obligations.SendReportsTheFirstFailureOrHandsOverTheFrame : Prop :=
  ∀ (s : State) (target c : Byte) (p : List Byte),
    (s.ctxValid = false → exec (.send target c p) s = .next (s.giving (.err .invalidContext))) ∧
    (s.ctxValid = true → s.timerOk = false →
      exec (.send target c p) s = .next (s.giving (.err .timerNotConfigured))) ∧
    (s.ctxValid = true → s.timerOk = true → 63 < p.length →
      exec (.send target c p) s = .next (s.giving (.err .payloadTooLarge))) ∧
    (s.ctxValid = true → s.timerOk = true → p.length ≤ 63 → ∀ a as, s.sendAnswers = a :: as →
      let n : Byte := BitVec.ofNat 8 p.length
      let k : Byte := target ^^^ s.masterAddr ^^^ c ^^^ n ^^^ p.foldl (· ^^^ ·) 0
      ∃ u, exec (.send target c p) s = .next u ∧
        u = { s with
          result := some (if a then .ok .unit else .err .transportFailure)
          sent := s.sent ++ [([0x55, 0xAA, target, s.masterAddr, c, n] ++ p ++ [k], a)]
          sendAnswers := as
          draws := u.draws })

/-- 42 R156: SEND neither reads nor writes the decoder (the spec derives it). Whatever the transport answers, only the
result and the transport's port change, and at most one frame is added (R158); and from two states that differ in decoder
registers only it gives the same result, the same frames, the same answers left and the same draws. -/
def Obligations.SendLeavesTheDecoderAlone : Prop :=
  ∀ (s u : State) (target c : Byte) (p : List Byte), exec (.send target c p) s = .next u →
    u = { s with result := u.result, sent := u.sent, sendAnswers := u.sendAnswers, draws := u.draws } ∧
    (u.sent = s.sent ∨ ∃ f a, u.sent = s.sent ++ [(f, a)] ∧ f.length = 7 + p.length ∧ p.length ≤ 63) ∧
    ∀ s' : State, DecoderOnly s s' → ∃ u', exec (.send target c p) s' = .next u' ∧
      u'.result = u.result ∧ u'.sent = u.sent ∧ u'.sendAnswers = u.sendAnswers ∧ u'.draws = u.draws

/-- 42 R151: ENCODE builds `[55 AA d s c n] ++ p ++ [k]`, `k` the exclusive or of everything between, and SEND hands
over the frame with `d = target` and `s = MASTER_ADDR`, whatever the transport answers. -/
def Obligations.EncodeBuildsTheFrame : Prop :=
  ∀ (s : State) (d src c : Byte) (p : List Byte), p.length ≤ 63 →
    let n : Byte := BitVec.ofNat 8 p.length
    let built (x : Byte) : List Byte := [0x55, 0xAA, d, x, c, n] ++ p ++ [d ^^^ x ^^^ c ^^^ n ^^^ p.foldl (· ^^^ ·) 0]
    exec (.encode d src c p) s = .next (s.giving (.ok (.bytes (built src)))) ∧
    (s.ctxValid = true → s.timerOk = true →
      ∃ u a, exec (.send d c p) s = .next u ∧ u.sent = s.sent ++ [(built s.masterAddr, a)])

/-! ### Control -/

/-- 10 R31: SET_TIMEOUT writes the timeout register and nothing else, not the deadline of a call in progress. -/
def Obligations.SetTimeoutWritesTheTimeoutAlone : Prop :=
  ∀ (s : State) (ms : Nat), exec (.setTimeout ms) s = .next { s with cmdTimeoutMs := ms }

/-- 70 R270 (the spec's decisions D2, D31): RESET constructs the context, abandons a transaction without a result, and
leaves the environment alone; the capture registers are not spoken of (log 14). -/
def Obligations.ResetConstructsTheContext : Prop :=
  ∀ (s : State) (m : Byte), ∃ t, exec (.reset m) s = .next t ∧
    t.phase = .awaitHeader0 ∧ t.ready = false ∧ t.masterAddr = m ∧ t.cmdTimeoutMs = Config.defaultTimeoutMs ∧
    t.wait = none ∧ t.result = none ∧ t.ctxValid = s.ctxValid ∧ t.timerOk = s.timerOk ∧
    t.sendAnswers = s.sendAnswers ∧ t.nowMs = s.nowMs ∧ t.script = s.script ∧ t.sent = s.sent

/-- 10 R37, R39 (the spec's decisions D2, D21): what State.reset holds; MASTER_ADDR and DEFAULT_TIMEOUT_MS are the
instance's parameters (log 17). -/
def Obligations.ResetStateHoldsTheStatedValues : Prop :=
  State.reset.phase = .awaitHeader0 ∧ State.reset.ready = false ∧ State.reset.wait = none ∧
    State.reset.masterAddr = Config.masterAddr ∧ State.reset.cmdTimeoutMs = Config.defaultTimeoutMs

/-! ### The transaction -/

/-- 45 R226, R222 (the latter derived by the spec): AWAIT entered with a frame ready is CHECK at once, with no poll and
no deadline test: same result, same state, the script untouched. -/
def Obligations.AwaitChecksAReadyFrameAtOnce : Prop :=
  ∀ (s : State) (target e : Byte) (ms cap : Nat) (p : List Byte), s.ready = true → s.payload = some p →
    ∃ u, exec (.check target e cap) s = .next u ∧
      exec (.await target e ms cap) s = .next { u with wait := none }

/-- 45 R225, R224 (a), (b), R227 (R224 and R227 are the spec's decision D9; log 5, log 6; one step runs over all the polls,
log 8): if of any number of polls the last is the first to find the deadline reached and none before it completed a frame,
AWAIT ends there. It ends with Timeout and the decoder reset, even if that poll completed a frame, unless the environment
keeps that frame: then with CHECK's result on it. -/
def Obligations.AwaitTimesOutAndResetsTheDecoder : Prop :=
  ∀ (s : State) (target e : Byte) (timeoutMs cap : Nat) (polls : Polls) (bs : List Byte) (d : Deadline) (keep : Bool)
    (rest : List Line), s.Inv → s.ready = false → s.script = pollLines (polls ++ [(bs, d, keep)]) ++ rest →
    let w : Wait := ⟨target, e, s.nowMs, timeoutMs, cap, none⟩
    inTime w s.nowMs polls = true → w.expired d (readingAfter s.nowMs polls) = true →
    ∃ u t, feed (pollBytes polls) s = .next u ∧ feed bs u = .next t ∧ (u.ready = false →
      let v : State := { t with
        nowMs := readingAfter s.nowMs (polls ++ [(bs, d, keep)]), wait := none, script := rest }
      ((t.ready && keep) = false → exec (.await target e timeoutMs cap) s = .next { v with
        phase := .awaitHeader0, ready := false, result := some (.err .timeout) }) ∧
      (t.ready = true → keep = true → ∃ x, exec (.check target e cap) v = .next x ∧
        exec (.await target e timeoutMs cap) s = .next x))

/-- 45 R220 to R226, 20 R62: a good response to the call, cut into polls in any way, is delivered: AWAIT ends with Ok
of its payload, the frame consumed and the decoder searching. (The polls are lines of the script that one AWAIT step runs
over: log 5, log 8; how each finds the deadline: log 6.) -/
def Obligations.AwaitDeliversAFragmentedResponse : Prop :=
  ∀ (s : State) (target e : Byte) (timeoutMs cap : Nat) (p : List Byte) (polls : Polls)
    (final : List Byte × Deadline × Bool) (rest : List Line),
    s.ready = false → s.phase = .awaitHeader0 → e.toNat ≤ 0x7F → p.length ≤ 64 → p.length ≤ cap →
    pollBytes (polls ++ [final]) =
      frameBytes s.masterAddr target e p (lrc s.masterAddr target e (BitVec.ofNat 8 p.length) p) →
    final.1 ≠ [] → inTime ⟨target, e, s.nowMs, timeoutMs, cap, none⟩ s.nowMs (polls ++ [final]) = true →
    s.script = pollLines (polls ++ [final]) ++ rest →
    ∃ u, exec (.await target e timeoutMs cap) s = .next u ∧ u.result = some (.ok (.bytes p)) ∧ u.wait = none ∧
      u.ready = false ∧ u.phase = .awaitHeader0 ∧ u.script = rest ∧ u.cmdTimeoutMs = s.cmdTimeoutMs ∧ u.sent = s.sent

/-- 45 R221, R223: with no frame ready and no poll answered the call is in progress, its context held and its deadline
fixed, and the decoder has not moved (that it waits in the state is the model's, log 8). -/
def Obligations.AwaitWithoutPollsStaysInProgress : Prop :=
  ∀ (s : State) (target e : Byte) (timeoutMs cap : Nat), s.ready = false → s.script = [] →
    exec (.await target e timeoutMs cap) s = .next { s with
      wait := some ⟨target, e, s.nowMs, timeoutMs, cap, none⟩, result := none }

/-- 45 R233, 60 R248: wherever a wait ends with a result, success or error, `ready = 0` and the phase is AwaitHeader0:
inside the AWAIT itself, inside a typed operation whose SEND ended with Ok, and at a later step that a wait held in the
state goes on in (log 8). (A wait that is aborted or abandoned by RESET ends with no result.) -/
def Obligations.WaitsEndingWithAResultLeaveTheDecoderIdle : Prop :=
  ∀ s t : State, s.Inv → t.wait = none → t.result ≠ none →
    ((∃ target e timeoutMs cap, exec (.await target e timeoutMs cap) s = .next t) ∨
      (∃ target c req cap rsp u, exec (.send target c (packRequest req)) s = .next u ∧ u.result = some (.ok .unit) ∧
        exec (.op target c req cap rsp) s = .next t) ∨
      (s.wait.isSome = true ∧ step s = .next t)) →
    t.ready = false ∧ t.phase = .awaitHeader0

/-- 45 R230, R231, R232: a typed operation is SEND of the packed arguments, then AWAIT with the timeout register, then
the layout's unpack of an Ok payload; the first error ends it and is its result. (R232 is derived by the spec. That a
wait still in progress is held in the state, with the layout to unpack with, is the model's choice, log 8; that the layouts
are operands, log 33, log 41.) -/
def Obligations.TypedOperationIsSendThenAwaitThenUnpack : Prop :=
  ∀ (s u : State) (target c : Byte) (req : Request) (cap : Nat) (rsp : Response),
    (Instr.op target c req cap rsp).WellFormed → exec (.send target c (packRequest req)) s = .next u →
    (∀ e, u.result = some (.err e) → exec (.op target c req cap rsp) s = .next u) ∧
    (∀ v, u.result = some (.ok .unit) → exec (.await target c u.cmdTimeoutMs cap) u = .next v →
      exec (.op target c req cap rsp) s = .next { v with
        wait := v.wait.map fun w => { w with unpack := some rsp }
        result := v.result.map fun r => match r with
          | .ok (.bytes p) => unpackResponse rsp p
          | r => r })

/-- 45 R230 to R233: a typed operation whose request the transport takes and whose response arrives in time, cut into
polls in any way, ends with what its layout unpacks from the payload; its request has been handed over once. (The script,
the transport's listed answers and the layouts as operands are the model's: log 5, log 6, log 8, log 9, log 33, log 41.) -/
def Obligations.TypedOperationCompletesEndToEnd : Prop :=
  ∀ (s : State) (target c : Byte) (req : Request) (cap : Nat) (rsp : Response) (as : List Bool) (p : List Byte)
    (polls : Polls) (final : List Byte × Deadline × Bool) (rest : List Line),
    (Instr.op target c req cap rsp).WellFormed → s.ctxValid = true → s.timerOk = true →
    (packRequest req).length ≤ 63 → s.sendAnswers = true :: as → s.ready = false → s.phase = .awaitHeader0 →
    p.length ≤ 64 → p.length ≤ cap →
    pollBytes (polls ++ [final]) =
      frameBytes s.masterAddr target c p (lrc s.masterAddr target c (BitVec.ofNat 8 p.length) p) →
    final.1 ≠ [] → inTime ⟨target, c, s.nowMs, s.cmdTimeoutMs, cap, some rsp⟩ s.nowMs (polls ++ [final]) = true →
    s.script = pollLines (polls ++ [final]) ++ rest →
    ∃ u, exec (.op target c req cap rsp) s = .next u ∧ u.result = some (unpackResponse rsp p) ∧ u.wait = none ∧
      u.ready = false ∧ u.phase = .awaitHeader0 ∧ u.script = rest ∧
      u.sent = s.sent ++ [(encodeFrame target s.masterAddr c (packRequest req), true)]

/-! ### The Payload Codec -/

/-- 43 R165, R167, R169: each integer field is packed least significant byte first. -/
def Obligations.IntegerFieldsPackLittleEndian : Prop :=
  ∀ s : State,
    (∀ v : Byte, exec (.packU8 v) s = .next (s.giving (.ok (.bytes [v])))) ∧
    (∀ v : Word16, exec (.packU16 v) s =
      .next (s.giving (.ok (.bytes [BitVec.ofNat 8 (v.toNat % 256), BitVec.ofNat 8 (v.toNat / 256)])))) ∧
    (∀ v : Int, -32768 ≤ v → v ≤ 32767 → exec (.packS16 v) s = .next (s.giving (.ok (.bytes
      [BitVec.ofInt 8 (v % 65536 % 256), BitVec.ofInt 8 (v % 65536 / 256)]))))

/-- 43 R166, R168, R170: each integer field is read from its own bytes, at any offset; unpacking a packed field gives
every value in range back, wherever the field stands; and packing an unpacked u16 gives its two bytes back. -/
def Obligations.IntegerFieldsUnpackAndInvertPacking : Prop :=
  ∀ (s : State) (bs : List Byte) (a : Nat),
    (∀ h : a < bs.length, exec (.unpackU8 bs a) s = .next (s.giving (.ok (.nat bs[a].toNat)))) ∧
    (∀ h : a + 1 < bs.length,
      let u : Nat := bs[a].toNat + 256 * bs[a + 1].toNat
      exec (.unpackU16 bs a) s = .next (s.giving (.ok (.nat u))) ∧
      exec (.unpackS16 bs a) s = .next (s.giving (.ok (.int (if u < 32768 then (u : Int) else (u : Int) - 65536)))) ∧
      exec (.packU16 (BitVec.ofNat 16 u)) s = .next (s.giving (.ok (.bytes [bs[a], bs[a + 1]])))) ∧
    ∀ post : List Byte,
      (∀ v : Word16, ∃ w, exec (.packU16 v) s = .next (s.giving (.ok (.bytes w))) ∧
        exec (.unpackU16 (bs ++ w ++ post) bs.length) s = .next (s.giving (.ok (.nat v.toNat)))) ∧
      ∀ v : Int, -32768 ≤ v → v ≤ 32767 → ∃ w, exec (.packS16 v) s = .next (s.giving (.ok (.bytes w))) ∧
        exec (.unpackS16 (bs ++ w ++ post) bs.length) s = .next (s.giving (.ok (.int v)))

/-- 43 R171, R172: a 32-bit float is moved as its pattern, least significant byte first (the byte order is the spec's
decision D13, log 25): its packing, its unpacking at any offset, and that the second undoes the first. -/
def Obligations.FloatFieldsMoveThePatternBitForBit : Prop :=
  ∀ (s : State) (bs post : List Byte) (a : Nat),
    (∀ h : a + 3 < bs.length, exec (.unpackF32 bs a) s = .next (s.giving (.ok (.word32 (BitVec.ofNat 32
      (bs[a].toNat + 2 ^ 8 * bs[a + 1].toNat + 2 ^ 16 * bs[a + 2].toNat + 2 ^ 24 * bs[a + 3].toNat)))))) ∧
    ∀ w : Word32,
      let f : List Byte := [BitVec.ofNat 8 (w.toNat % 256), BitVec.ofNat 8 (w.toNat / 2 ^ 8 % 256),
        BitVec.ofNat 8 (w.toNat / 2 ^ 16 % 256), BitVec.ofNat 8 (w.toNat / 2 ^ 24)]
      exec (.packF32 w) s = .next (s.giving (.ok (.bytes f))) ∧
      exec (.unpackF32 (bs ++ f ++ post) bs.length) s = .next (s.giving (.ok (.word32 w)))

/-- 43 R166 to R172, R175, 42 R151, 44 R189, R197, R198, 30 R74, R79, R81, 45 R230: outside the ranges their rules define
the operations have no meaning, and the model refuses them by name; no value is truncated, no array padded (R175 and R198
are the spec's decisions D15, D17; log 3, log 4, log 27, log 28, log 29, log 33). -/
def Obligations.OperandsOutsideTheirDomainAreRefused : Prop :=
  ∀ s : State,
    (∀ v : Int, v < -32768 ∨ 32767 < v → exec (.packS16 v) s = .refused .outsideDomain) ∧
    (∀ (bs : List Byte) (a : Nat), (bs.length ≤ a → exec (.unpackU8 bs a) s = .refused .outsideDomain) ∧
      (bs.length < a + 2 → exec (.unpackU16 bs a) s = .refused .outsideDomain ∧
        exec (.unpackS16 bs a) s = .refused .outsideDomain) ∧
      (bs.length < a + 4 → exec (.unpackF32 bs a) s = .refused .outsideDomain)) ∧
    (∀ d src c p, 63 < List.length p → exec (.encode d src c p) s = .refused .outsideDomain) ∧
    (∀ d src c p k, 64 < List.length p → exec (.frame d src c p k) s = .refused .outsideDomain) ∧
    (∀ motors : List (Int × Byte),
      ((∃ m ∈ motors, m.1 < 0 ∨ 65535 < m.1) → exec (.packAllSet .unsigned motors) s = .refused .outsideDomain) ∧
      ((∃ m ∈ motors, m.1 < -32768 ∨ 32767 < m.1) → exec (.packAllSet .signed motors) s = .refused .outsideDomain)) ∧
    (∀ (mask : Byte) (n : Nat) (speed position : List Word16) (angle : List Int),
      let fit := speed.length = (if mask.getLsbD 0 then n else 0) ∧ position.length = (if mask.getLsbD 1 then n else 0) ∧
        angle.length = (if mask.getLsbD 2 then n else 0)
      (¬ fit → exec (.packCustom mask n speed position angle) s = .refused .motorCountMismatch) ∧
      (fit → (∃ v ∈ angle, v < -32768 ∨ 32767 < v) →
        exec (.packCustom mask n speed position angle) s = .refused .outsideDomain)) ∧
    (∀ target c req cap rsp, ¬ (Instr.op target c req cap rsp).WellFormed →
      exec (.op target c req cap rsp) s = .refused .outsideDomain) ∧
    (∀ (target c : Byte) (cap : Nat) (rsp : Response) (req : Request), 0x7F < c.toNat →
      exec (.op target c req cap rsp) s = .refused .outsideDomain) ∧
    ∀ op : BitVec 7,
      (0x25 < op.toNat → exec (.cmdGet op) s = .refused .outsideDomain) ∧
      (op.toNat < 0x40 ∨ 0x65 < op.toNat ∨ op = 0x5F → exec (.cmdSet op) s = .refused .outsideDomain) ∧
      (op.toNat ≤ 0x25 ∨ 0x40 ≤ op.toNat ∧ op.toNat ≤ 0x65 →
        exec (.cmdUnassigned op) s = .refused .outsideDomain)

/-- 44 R185: a RAW payload is moved unchanged. -/
def Obligations.RawPayloadIsUnchanged : Prop :=
  ∀ (s : State) (p : List Byte), exec (.raw p) s = .next (s.giving (.ok (.bytes p)))

/-- 44 R187, R188 (the order of the terms and the short case are the spec's decision D14, log 26): a PID block is 16
bytes, P at 0, I at 4, D at 8, G at 12, read back at any offset; with fewer than 16 bytes there the result is
DataInvalid. -/
def Obligations.PidBlockRoundTrips : Prop :=
  ∀ (s : State) (p i d g : Word32) (pre post : List Byte),
    (∃ bs, exec (.packPid p i d g) s = .next (s.giving (.ok (.bytes bs))) ∧ bs.length = 16 ∧
      unpackF32 bs 0 = p ∧ unpackF32 bs 4 = i ∧ unpackF32 bs 8 = d ∧ unpackF32 bs 12 = g ∧
      exec (.unpackPid (pre ++ bs ++ post) pre.length) s = .next (s.giving (.ok (.pid p i d g)))) ∧
    ∀ a, pre.length < a + 16 → exec (.unpackPid pre a) s = .next (s.giving (.err .dataInvalid))

/-- 44 R189: an all-motors set payload is 3N bytes, motor k's value at 3k and its speed at 3k + 2, under either
reading; the pack has no error of its own, and with N above 21 the SEND that follows reports PayloadTooLarge. -/
def Obligations.AllMotorsSetInterleavesValuesAndSpeeds : Prop :=
  ∀ (s : State) (r : Reading) (motors : List (Int × Byte)), (∀ m ∈ motors, inRange16 r m.1 = true) →
    ∃ bs, exec (.packAllSet r motors) s = .next (s.giving (.ok (.bytes bs))) ∧ bs.length = 3 * motors.length ∧
      (∀ (k : Nat) (h : k < motors.length), unpack16 r bs (3 * k) = motors[k].1 ∧ bs[3 * k + 2]? = some motors[k].2) ∧
      (21 < motors.length → s.ctxValid = true → s.timerOk = true → ∀ target c,
        exec (.send target c bs) s = .next (s.giving (.err .payloadTooLarge)))

/-- 44 R192: an all-motors get response is a target block and then a current block, read in full, under either
reading. -/
def Obligations.AllMotorsGetReadsTwoBlocks : Prop :=
  ∀ (s : State) (r : Reading) (target current : List Int) (cap : Nat), target.length = current.length →
    target.length ≤ cap → (∀ v ∈ target ++ current, inRange16 r v = true) →
    exec (.unpackAllGet r ((target ++ current).flatMap (pack16 r)) cap) s =
      .next (s.giving (.ok (.allGet target.length target current)))

/-- 44 R195: a calibration response is the two counts, then end positions, start positions and thumb root positions,
each u16. -/
def Obligations.CalibrationResponseReadsItsThreeArrays : Prop :=
  ∀ (s : State) (mc tc : Byte) (ends starts thumbs : List Word16) (capM capT : Nat),
    ends.length = mc.toNat → starts.length = mc.toNat → thumbs.length = tc.toNat → mc.toNat ≤ capM → tc.toNat ≤ capT →
    exec (.unpackCali ([mc, tc] ++ (ends ++ starts ++ thumbs).flatMap packU16) capM capT) s =
      .next (s.giving (.ok (.cali mc.toNat tc.toNat (ends.map BitVec.toNat) (starts.map BitVec.toNat)
        (thumbs.map BitVec.toNat))))

/-- 44 R197, R199: the custom request is the mask, then the active set arrays in the order speed, position, angle, one
little-endian value per motor: 1 + 2NS bytes. (The bit numbers are the spec's decision D16, log 24; R199 it derives.) -/
def Obligations.CustomRequestCarriesTheActiveSetArrays : Prop :=
  ∀ (s : State) (mask : Byte) (n : Nat) (speed position : List Word16) (angle : List Int),
    speed.length = (if mask.getLsbD 0 then n else 0) → position.length = (if mask.getLsbD 1 then n else 0) →
    angle.length = (if mask.getLsbD 2 then n else 0) → (∀ v ∈ angle, inRange16 .signed v = true) →
    let bs := mask :: (speed.flatMap packU16 ++ position.flatMap packU16 ++ angle.flatMap packS16)
    exec (.packCustom mask n speed position angle) s = .next (s.giving (.ok (.bytes bs))) ∧
      bs.length = 1 + 2 * n * ((mask.getLsbD 0).toNat + (mask.getLsbD 1).toNat + (mask.getLsbD 2).toNat)

/-- 44 R201, R204: the custom response is one block per active get bit in the order position, angle, current, force,
status, and gives back every array of an active bit and none of an inactive one. (The bit numbers are the spec's decision
D16, log 24; the capacity its D17, log 29.) -/
def Obligations.CustomResponseReadsTheActiveGetArrays : Prop :=
  ∀ (s : State) (mask : Byte) (position current force : List Word16) (angle : List Int) (status : List Byte)
    (n cap : Nat), mask &&& 0xF8 ≠ 0 → n ≤ cap → position.length = n → angle.length = n → current.length = n →
    force.length = n → status.length = n → (∀ v ∈ angle, inRange16 .signed v = true) →
    let block (bit : Nat) (bs : List Byte) : List Byte := if mask.getLsbD bit then bs else []
    exec (.unpackCustom mask (block 3 (position.flatMap packU16) ++ block 4 (angle.flatMap packS16) ++
        block 5 (current.flatMap packU16) ++ block 6 (force.flatMap packU16) ++ block 7 status) cap) s =
      .next (s.giving (.ok (.custom n
        (if mask.getLsbD 3 then some (position.map BitVec.toNat) else none)
        (if mask.getLsbD 4 then some angle else none)
        (if mask.getLsbD 5 then some (current.map BitVec.toNat) else none)
        (if mask.getLsbD 6 then some (force.map BitVec.toNat) else none)
        (if mask.getLsbD 7 then some (status.map BitVec.toNat) else none))))

/-- 44 R190, R191, R193, R194, R201 to R203: lengths that do not fit the layout are DataInvalid, more motors or entries
than the host's arrays hold DataTooLarge, with nothing delivered. (R190, R193, R194, R202, R203 are the spec's decisions
D17 to D19; log 29, log 30, log 31.) -/
def Obligations.LayoutsRejectBadLengthsAndCapacities : Prop :=
  ∀ (s : State) (p : List Byte) (r : Reading) (mask : Byte) (cap capT : Nat),
    let w := 2 * ((mask.getLsbD 3).toNat + (mask.getLsbD 4).toNat + (mask.getLsbD 5).toNat + (mask.getLsbD 6).toNat)
      + (mask.getLsbD 7).toNat
    (p.length % 4 ≠ 0 → exec (.unpackAllGet r p cap) s = .next (s.giving (.err .dataInvalid))) ∧
    (p.length % 4 = 0 → cap < p.length / 4 →
      exec (.unpackAllGet r p cap) s = .next (s.giving (.err .dataTooLarge))) ∧
    (p.length < 2 → exec (.unpackCali p cap capT) s = .next (s.giving (.err .dataInvalid))) ∧
    (∀ h : 1 < p.length, cap < p[0].toNat ∨ capT < p[1].toNat →
      exec (.unpackCali p cap capT) s = .next (s.giving (.err .dataTooLarge))) ∧
    (∀ h : 1 < p.length, p[0].toNat ≤ cap → p[1].toNat ≤ capT → p.length ≠ 2 + 4 * p[0].toNat + 2 * p[1].toNat →
      exec (.unpackCali p cap capT) s = .next (s.giving (.err .dataInvalid))) ∧
    (w ≠ 0 → p.length % w ≠ 0 → exec (.unpackCustom mask p cap) s = .next (s.giving (.err .dataInvalid))) ∧
    (w ≠ 0 → p.length % w = 0 → cap < p.length / w →
      exec (.unpackCustom mask p cap) s = .next (s.giving (.err .dataTooLarge))) ∧
    (w = 0 → exec (.unpackCustom mask p cap) s = .next (s.giving
      (if p = [] then .ok (.custom 0 none none none none none) else .err .dataInvalid)))

/-- 30 R74, R76, R81: the classes of a command byte and what each says of the payload. (That the CMD rows, as
instructions, answer the class is the model's choice, log 4.) -/
def Obligations.CommandBytesAreClassified : Prop :=
  ∀ (s : State) (op : BitVec 7),
    exec (.cmdErrflag op) s = .next (s.giving (.ok (.command (.errFlag op) .errorCode))) ∧
    exec .cmdCustom s = .next (s.giving (.ok (.command .custom .customFormats))) ∧
    (op.toNat ≤ 0x25 → exec (.cmdGet op) s = .next (s.giving (.ok (.command (.get op) .anyFormat)))) ∧
    (0x40 ≤ op.toNat → op.toNat ≤ 0x65 → op ≠ 0x5F →
      exec (.cmdSet op) s = .next (s.giving (.ok (.command (.set op) .anyFormat)))) ∧
    (0x25 < op.toNat ∧ op.toNat < 0x40 ∨ 0x65 < op.toNat →
      exec (.cmdUnassigned op) s = .next (s.giving (.ok (.command (.unassigned op) .rawOnly))))

/-! ### The whole machine -/

/-- Every step keeps the invariant: the payload buffer stays in its canonical form, in AwaitPayload
`1 ≤ rem ≤ len ≤ 64`, and a ready frame is what 10 R28 says (10 R22, R28). -/
def Obligations.StepKeepsTheInvariant : Prop := ∀ s t : State, s.Inv → step s = .next t → t.Inv

/-- The state after reset meets the invariant. -/
def Obligations.ResetMeetsTheInvariant : Prop := State.reset.Inv

/-- 10 R30, R31, R26, 60 R250: no step changes MASTER_ADDR but a RESET, none the timeout register but SET_TIMEOUT and
RESET; `ready` is set by an accepted checksum byte alone (as a transition or inside an arriving frame); and SEND,
SET_TIMEOUT, the codec and the command classes have no access to the decoder. (RESET is the spec's own operation, D31.) -/
def Obligations.OnlyItsOwnersWriteARegister : Prop :=
  (∀ s t : State, step s = .next t →
    (t.masterAddr = s.masterAddr ∨ ∃ m rest, s.script = .call (.reset m) :: rest ∧ t.masterAddr = m) ∧
    (t.cmdTimeoutMs = s.cmdTimeoutMs ∨ (∃ ms rest, s.script = .call (.setTimeout ms) :: rest ∧ t.cmdTimeoutMs = ms) ∨
      ∃ m rest, s.script = .call (.reset m) :: rest ∧ t.cmdTimeoutMs = Config.defaultTimeoutMs)) ∧
  (∀ (i : Instr) (s t : State), exec i s = .next t → s.ready = false → t.ready = true →
    (∃ b, i = .rxbChkAccept b) ∨ ∃ d src c p k, i = .frame d src c p k) ∧
  ∀ (i : Instr) (s t : State), leavesDecoder i = true → exec i s = .next t → DecoderSame s t
end

