-- ==== Sys2Proof/Laws/Memory.lean ====
section
/-! SUPPORT. The laws of the payload capture buffer: read after write, the canonical form, consecutive cells. -/

namespace Sys2Proof.Machine

theorem Memory.read_write_same (m : Memory) (a : Nat) (v : Byte) : (Memory.write m a v).read a = some v := by
  induction m with
  | nil => simp [Memory.write, Memory.read]
  | cons c m ih =>
    obtain ⟨k, w⟩ := c
    simp only [Memory.write]
    split
    · simp [Memory.read]
    · split
      · simp [Memory.read]
      · have : k ≠ a := by omega
        simp [Memory.read, this, ih]

theorem Memory.read_write_other (m : Memory) {a b : Nat} (v : Byte) (h : b ≠ a) :
    (Memory.write m a v).read b = m.read b := by
  induction m with
  | nil => simp [Memory.write, Memory.read, Ne.symm h]
  | cons c m ih =>
    obtain ⟨k, w⟩ := c
    simp only [Memory.write]
    split
    · simp [Memory.read, Ne.symm h]
    · split
      · subst_vars; simp [Memory.read, Ne.symm h]
      · simp [Memory.read, ih]

/-- Storing in a cell that exists keeps the canonical form from any address at or below it. -/
theorem Memory.risingFrom_write {m : Memory} {lo a : Nat} (v : Byte) (hm : Memory.risingFrom lo m = true)
    (hlo : lo ≤ a) (ha : a < payCells) : Memory.risingFrom lo (Memory.write m a v) = true := by
  induction m generalizing lo with
  | nil => simp [Memory.write, Memory.risingFrom, hlo, ha]
  | cons c m ih =>
    obtain ⟨k, w⟩ := c
    simp only [Memory.risingFrom, Bool.and_eq_true, decide_eq_true_eq] at hm
    obtain ⟨⟨h1, h2⟩, h3⟩ := hm
    simp only [Memory.write]
    split
    · rename_i h; simp [Memory.risingFrom, hlo, ha, h2, h3, Nat.succ_le_of_lt h]
    · split
      · subst_vars; simp [Memory.risingFrom, hlo, ha, h3]
      · simp [Memory.risingFrom, h1, h2, ih h3 (by omega)]

/-- Every store in a cell that exists keeps the canonical form. -/
theorem Memory.write_wf {m : Memory} {a : Nat} (v : Byte) (hm : m.wf = true) (ha : a < payCells) :
    Memory.wf (Memory.write m a v) = true :=
  Memory.risingFrom_write v hm (Nat.zero_le a) ha

/-- Storing consecutive bytes that fit keeps the canonical form. -/
theorem Memory.writeAll_wf {m : Memory} {a : Nat} (bs : List Byte) (hm : m.wf = true)
    (ha : a + bs.length ≤ payCells) : Memory.wf (Memory.writeAll m a bs) = true := by
  induction bs generalizing m a with
  | nil => exact hm
  | cons b bs ih =>
    simp only [List.length_cons] at ha
    exact ih (Memory.write_wf b hm (by omega)) (by omega)

/-! ### The cells as the state holds them (10 R25) -/

/-- Every cell that exists holds a byte, and no other does. -/
theorem State.cell_isSome (s : State) (a : Nat) : (s.cell a).isSome = decide (a < payCells) := by
  unfold State.cell
  split <;> simp_all

/-- A stored byte is what its cell holds. -/
theorem State.cell_of_read {s : State} {a : Nat} {b : Byte} (ha : a < payCells) (h : s.pay.read a = some b) :
    s.cell a = some b := by
  simp [State.cell, ha, h]

/-- A span is read cell by cell. -/
theorem State.span_eq_some_iff (s : State) (a n : Nat) (bs : List Byte) :
    s.span a n = some bs ↔ bs.length = n ∧ ∀ k (h : k < bs.length), s.cell (a + k) = some bs[k] := by
  induction n generalizing a bs with
  | zero => cases bs <;> simp [State.span]
  | succ n ih =>
    simp only [State.span]
    cases bs with
    | nil => split <;> simp
    | cons b bs =>
      constructor
      · intro h
        split at h <;> simp only [Option.some.injEq, reduceCtorEq, List.cons.injEq] at h
        rename_i hb hbs
        obtain ⟨rfl, rfl⟩ := h
        obtain ⟨hl, hr⟩ := (ih _ _).1 hbs
        refine ⟨by simp [hl], fun k hk => ?_⟩
        cases k with
        | zero => simpa using hb
        | succ k => simpa [Nat.add_assoc, Nat.add_comm 1 k] using hr k (by simpa using hk)
      · rintro ⟨hl, hr⟩
        have hb := hr 0 (by simp)
        have hbs : s.span (a + 1) n = some bs := (ih _ _).2 ⟨by simpa using hl, fun k hk => by
          have hk' := hr (k + 1) (by simpa using hk)
          rwa [List.getElem_cons_succ, ← Nat.add_assoc, Nat.add_right_comm] at hk'⟩
        simp only [Nat.add_zero, List.getElem_cons_zero] at hb
        simp [hb, hbs]

/-- What the cells hold depends on the stored bytes and the construction count alone. -/
theorem State.span_congr {s t : State} (hp : t.pay = s.pay) (hb : t.built = s.built) (a n : Nat) :
    t.span a n = s.span a n := by
  induction n generalizing a with
  | zero => rfl
  | succ n ih => simp only [State.span, State.cell, hp, hb, ih]

/-- The captured payload depends on the stored bytes, the construction count and `len` alone. -/
theorem State.payload_congr {s t : State} (hp : t.pay = s.pay) (hb : t.built = s.built) (hl : t.len = s.len) :
    t.payload = s.payload := by
  rw [State.payload, State.payload, hl, State.span_congr hp hb]

/-- A span inside the buffer can be read. -/
theorem State.span_isSome {s : State} {a n : Nat} (h : a + n ≤ payCells) : ∃ bs, s.span a n = some bs := by
  induction n generalizing a with
  | zero => exact ⟨[], rfl⟩
  | succ n ih =>
    obtain ⟨b, hb⟩ := Option.isSome_iff_exists.1 ((s.cell_isSome a).trans (decide_eq_true (by omega)))
    obtain ⟨bs, hbs⟩ := ih (a := a + 1) (by omega)
    exact ⟨b :: bs, by simp [State.span, hb, hbs]⟩

/-- The captured payload has `len` bytes (41 R130). -/
theorem State.payload_length {s : State} {p : List Byte} (h : s.payload = some p) : p.length = s.len.toNat :=
  ((s.span_eq_some_iff _ _ _).1 h).1

/-- The captured payload can be read whenever `len` is at most MAX_RX_LEN (10 R28). -/
theorem State.payload_isSome {s : State} (h : s.len.toNat ≤ payCells) : ∃ p, s.payload = some p :=
  State.span_isSome (by omega)

/-- The bytes stored in the first `len` cells are the captured payload. -/
theorem State.payload_of_read {s : State} {p : List Byte} (hl : p.length = s.len.toNat) (h64 : p.length ≤ payCells)
    (h : ∀ k (hk : k < p.length), s.pay.read k = some p[k]) : s.payload = some p :=
  (s.span_eq_some_iff _ _ _).2 ⟨hl, fun k hk => by
    rw [Nat.zero_add]
    exact State.cell_of_read (by omega) (h k hk)⟩

/-! ### Consecutive cells -/

/-- Storing consecutive bytes leaves the cells below them as they were. -/
theorem Memory.read_writeAll_below (m : Memory) (bs : List Byte) {a c : Nat} (h : c < a) :
    (m.writeAll a bs).read c = m.read c := by
  induction bs generalizing m a with
  | nil => rfl
  | cons b bs ih => rw [Memory.writeAll, ih _ (by omega), Memory.read_write_other _ _ (by omega)]

/-- Storing consecutive bytes leaves the cells beyond them as they were. -/
theorem Memory.read_writeAll_beyond (m : Memory) (bs : List Byte) {a c : Nat} (h : a + bs.length ≤ c) :
    (m.writeAll a bs).read c = m.read c := by
  induction bs generalizing m a with
  | nil => rfl
  | cons b bs ih =>
    rw [List.length_cons] at h
    rw [Memory.writeAll, ih _ (by omega), Memory.read_write_other _ _ (by omega)]

/-- The bytes just stored read back. -/
theorem Memory.read_writeAll_inside (m : Memory) (bs : List Byte) (a k : Nat) (h : k < bs.length) :
    (m.writeAll a bs).read (a + k) = some bs[k] := by
  induction bs generalizing m a k with
  | nil => simp at h
  | cons b bs ih =>
    rw [Memory.writeAll]
    cases k with
    | zero => exact (Memory.read_writeAll_below _ _ (Nat.lt_succ_self a)).trans (Memory.read_write_same _ _ _)
    | succ k =>
      rw [show a + (k + 1) = a + 1 + k by omega, ih _ _ _ (by simpa using h)]
      rfl

end Sys2Proof.Machine
end

