-- ==== Sys2Proof/Laws/State.lean ====
section
/-! SUPPORT. One lemma per field per update of the state, so that no proof unfolds a record update. -/

namespace Sys2Proof.Machine

variable (s : State)

/-! ### setPhase -/

@[simp] theorem State.setPhase_phase (x : Phase) : (s.setPhase x).phase = x := rfl
@[simp] theorem State.setPhase_dest (x : Phase) : (s.setPhase x).dest = s.dest := rfl
@[simp] theorem State.setPhase_src (x : Phase) : (s.setPhase x).src = s.src := rfl
@[simp] theorem State.setPhase_cmd (x : Phase) : (s.setPhase x).cmd = s.cmd := rfl
@[simp] theorem State.setPhase_len (x : Phase) : (s.setPhase x).len = s.len := rfl
@[simp] theorem State.setPhase_chk (x : Phase) : (s.setPhase x).chk = s.chk := rfl
@[simp] theorem State.setPhase_pay (x : Phase) : (s.setPhase x).pay = s.pay := rfl
@[simp] theorem State.setPhase_ready (x : Phase) : (s.setPhase x).ready = s.ready := rfl
@[simp] theorem State.setPhase_masterAddr (x : Phase) : (s.setPhase x).masterAddr = s.masterAddr := rfl
@[simp] theorem State.setPhase_cmdTimeoutMs (x : Phase) : (s.setPhase x).cmdTimeoutMs = s.cmdTimeoutMs := rfl
@[simp] theorem State.setPhase_wait (x : Phase) : (s.setPhase x).wait = s.wait := rfl
@[simp] theorem State.setPhase_result (x : Phase) : (s.setPhase x).result = s.result := rfl
@[simp] theorem State.setPhase_ctxValid (x : Phase) : (s.setPhase x).ctxValid = s.ctxValid := rfl
@[simp] theorem State.setPhase_timerOk (x : Phase) : (s.setPhase x).timerOk = s.timerOk := rfl
@[simp] theorem State.setPhase_sendAnswers (x : Phase) : (s.setPhase x).sendAnswers = s.sendAnswers := rfl
@[simp] theorem State.setPhase_nowMs (x : Phase) : (s.setPhase x).nowMs = s.nowMs := rfl
@[simp] theorem State.setPhase_script (x : Phase) : (s.setPhase x).script = s.script := rfl
@[simp] theorem State.setPhase_sent (x : Phase) : (s.setPhase x).sent = s.sent := rfl
@[simp] theorem State.setPhase_draws (x : Phase) : (s.setPhase x).draws = s.draws := rfl
@[simp] theorem State.setPhase_built (x : Phase) : (s.setPhase x).built = s.built := rfl

/-! ### setDest -/

@[simp] theorem State.setDest_phase (x : Byte) : (s.setDest x).phase = s.phase := rfl
@[simp] theorem State.setDest_dest (x : Byte) : (s.setDest x).dest = x := rfl
@[simp] theorem State.setDest_src (x : Byte) : (s.setDest x).src = s.src := rfl
@[simp] theorem State.setDest_cmd (x : Byte) : (s.setDest x).cmd = s.cmd := rfl
@[simp] theorem State.setDest_len (x : Byte) : (s.setDest x).len = s.len := rfl
@[simp] theorem State.setDest_chk (x : Byte) : (s.setDest x).chk = s.chk := rfl
@[simp] theorem State.setDest_pay (x : Byte) : (s.setDest x).pay = s.pay := rfl
@[simp] theorem State.setDest_ready (x : Byte) : (s.setDest x).ready = s.ready := rfl
@[simp] theorem State.setDest_masterAddr (x : Byte) : (s.setDest x).masterAddr = s.masterAddr := rfl
@[simp] theorem State.setDest_cmdTimeoutMs (x : Byte) : (s.setDest x).cmdTimeoutMs = s.cmdTimeoutMs := rfl
@[simp] theorem State.setDest_wait (x : Byte) : (s.setDest x).wait = s.wait := rfl
@[simp] theorem State.setDest_result (x : Byte) : (s.setDest x).result = s.result := rfl
@[simp] theorem State.setDest_ctxValid (x : Byte) : (s.setDest x).ctxValid = s.ctxValid := rfl
@[simp] theorem State.setDest_timerOk (x : Byte) : (s.setDest x).timerOk = s.timerOk := rfl
@[simp] theorem State.setDest_sendAnswers (x : Byte) : (s.setDest x).sendAnswers = s.sendAnswers := rfl
@[simp] theorem State.setDest_nowMs (x : Byte) : (s.setDest x).nowMs = s.nowMs := rfl
@[simp] theorem State.setDest_script (x : Byte) : (s.setDest x).script = s.script := rfl
@[simp] theorem State.setDest_sent (x : Byte) : (s.setDest x).sent = s.sent := rfl
@[simp] theorem State.setDest_draws (x : Byte) : (s.setDest x).draws = s.draws := rfl
@[simp] theorem State.setDest_built (x : Byte) : (s.setDest x).built = s.built := rfl

/-! ### setSrc -/

@[simp] theorem State.setSrc_phase (x : Byte) : (s.setSrc x).phase = s.phase := rfl
@[simp] theorem State.setSrc_dest (x : Byte) : (s.setSrc x).dest = s.dest := rfl
@[simp] theorem State.setSrc_src (x : Byte) : (s.setSrc x).src = x := rfl
@[simp] theorem State.setSrc_cmd (x : Byte) : (s.setSrc x).cmd = s.cmd := rfl
@[simp] theorem State.setSrc_len (x : Byte) : (s.setSrc x).len = s.len := rfl
@[simp] theorem State.setSrc_chk (x : Byte) : (s.setSrc x).chk = s.chk := rfl
@[simp] theorem State.setSrc_pay (x : Byte) : (s.setSrc x).pay = s.pay := rfl
@[simp] theorem State.setSrc_ready (x : Byte) : (s.setSrc x).ready = s.ready := rfl
@[simp] theorem State.setSrc_masterAddr (x : Byte) : (s.setSrc x).masterAddr = s.masterAddr := rfl
@[simp] theorem State.setSrc_cmdTimeoutMs (x : Byte) : (s.setSrc x).cmdTimeoutMs = s.cmdTimeoutMs := rfl
@[simp] theorem State.setSrc_wait (x : Byte) : (s.setSrc x).wait = s.wait := rfl
@[simp] theorem State.setSrc_result (x : Byte) : (s.setSrc x).result = s.result := rfl
@[simp] theorem State.setSrc_ctxValid (x : Byte) : (s.setSrc x).ctxValid = s.ctxValid := rfl
@[simp] theorem State.setSrc_timerOk (x : Byte) : (s.setSrc x).timerOk = s.timerOk := rfl
@[simp] theorem State.setSrc_sendAnswers (x : Byte) : (s.setSrc x).sendAnswers = s.sendAnswers := rfl
@[simp] theorem State.setSrc_nowMs (x : Byte) : (s.setSrc x).nowMs = s.nowMs := rfl
@[simp] theorem State.setSrc_script (x : Byte) : (s.setSrc x).script = s.script := rfl
@[simp] theorem State.setSrc_sent (x : Byte) : (s.setSrc x).sent = s.sent := rfl
@[simp] theorem State.setSrc_draws (x : Byte) : (s.setSrc x).draws = s.draws := rfl
@[simp] theorem State.setSrc_built (x : Byte) : (s.setSrc x).built = s.built := rfl

/-! ### setCmd -/

@[simp] theorem State.setCmd_phase (x : Byte) : (s.setCmd x).phase = s.phase := rfl
@[simp] theorem State.setCmd_dest (x : Byte) : (s.setCmd x).dest = s.dest := rfl
@[simp] theorem State.setCmd_src (x : Byte) : (s.setCmd x).src = s.src := rfl
@[simp] theorem State.setCmd_cmd (x : Byte) : (s.setCmd x).cmd = x := rfl
@[simp] theorem State.setCmd_len (x : Byte) : (s.setCmd x).len = s.len := rfl
@[simp] theorem State.setCmd_chk (x : Byte) : (s.setCmd x).chk = s.chk := rfl
@[simp] theorem State.setCmd_pay (x : Byte) : (s.setCmd x).pay = s.pay := rfl
@[simp] theorem State.setCmd_ready (x : Byte) : (s.setCmd x).ready = s.ready := rfl
@[simp] theorem State.setCmd_masterAddr (x : Byte) : (s.setCmd x).masterAddr = s.masterAddr := rfl
@[simp] theorem State.setCmd_cmdTimeoutMs (x : Byte) : (s.setCmd x).cmdTimeoutMs = s.cmdTimeoutMs := rfl
@[simp] theorem State.setCmd_wait (x : Byte) : (s.setCmd x).wait = s.wait := rfl
@[simp] theorem State.setCmd_result (x : Byte) : (s.setCmd x).result = s.result := rfl
@[simp] theorem State.setCmd_ctxValid (x : Byte) : (s.setCmd x).ctxValid = s.ctxValid := rfl
@[simp] theorem State.setCmd_timerOk (x : Byte) : (s.setCmd x).timerOk = s.timerOk := rfl
@[simp] theorem State.setCmd_sendAnswers (x : Byte) : (s.setCmd x).sendAnswers = s.sendAnswers := rfl
@[simp] theorem State.setCmd_nowMs (x : Byte) : (s.setCmd x).nowMs = s.nowMs := rfl
@[simp] theorem State.setCmd_script (x : Byte) : (s.setCmd x).script = s.script := rfl
@[simp] theorem State.setCmd_sent (x : Byte) : (s.setCmd x).sent = s.sent := rfl
@[simp] theorem State.setCmd_draws (x : Byte) : (s.setCmd x).draws = s.draws := rfl
@[simp] theorem State.setCmd_built (x : Byte) : (s.setCmd x).built = s.built := rfl

/-! ### setLen -/

@[simp] theorem State.setLen_phase (x : Byte) : (s.setLen x).phase = s.phase := rfl
@[simp] theorem State.setLen_dest (x : Byte) : (s.setLen x).dest = s.dest := rfl
@[simp] theorem State.setLen_src (x : Byte) : (s.setLen x).src = s.src := rfl
@[simp] theorem State.setLen_cmd (x : Byte) : (s.setLen x).cmd = s.cmd := rfl
@[simp] theorem State.setLen_len (x : Byte) : (s.setLen x).len = x := rfl
@[simp] theorem State.setLen_chk (x : Byte) : (s.setLen x).chk = s.chk := rfl
@[simp] theorem State.setLen_pay (x : Byte) : (s.setLen x).pay = s.pay := rfl
@[simp] theorem State.setLen_ready (x : Byte) : (s.setLen x).ready = s.ready := rfl
@[simp] theorem State.setLen_masterAddr (x : Byte) : (s.setLen x).masterAddr = s.masterAddr := rfl
@[simp] theorem State.setLen_cmdTimeoutMs (x : Byte) : (s.setLen x).cmdTimeoutMs = s.cmdTimeoutMs := rfl
@[simp] theorem State.setLen_wait (x : Byte) : (s.setLen x).wait = s.wait := rfl
@[simp] theorem State.setLen_result (x : Byte) : (s.setLen x).result = s.result := rfl
@[simp] theorem State.setLen_ctxValid (x : Byte) : (s.setLen x).ctxValid = s.ctxValid := rfl
@[simp] theorem State.setLen_timerOk (x : Byte) : (s.setLen x).timerOk = s.timerOk := rfl
@[simp] theorem State.setLen_sendAnswers (x : Byte) : (s.setLen x).sendAnswers = s.sendAnswers := rfl
@[simp] theorem State.setLen_nowMs (x : Byte) : (s.setLen x).nowMs = s.nowMs := rfl
@[simp] theorem State.setLen_script (x : Byte) : (s.setLen x).script = s.script := rfl
@[simp] theorem State.setLen_sent (x : Byte) : (s.setLen x).sent = s.sent := rfl
@[simp] theorem State.setLen_draws (x : Byte) : (s.setLen x).draws = s.draws := rfl
@[simp] theorem State.setLen_built (x : Byte) : (s.setLen x).built = s.built := rfl

/-! ### setChk -/

@[simp] theorem State.setChk_phase (x : Byte) : (s.setChk x).phase = s.phase := rfl
@[simp] theorem State.setChk_dest (x : Byte) : (s.setChk x).dest = s.dest := rfl
@[simp] theorem State.setChk_src (x : Byte) : (s.setChk x).src = s.src := rfl
@[simp] theorem State.setChk_cmd (x : Byte) : (s.setChk x).cmd = s.cmd := rfl
@[simp] theorem State.setChk_len (x : Byte) : (s.setChk x).len = s.len := rfl
@[simp] theorem State.setChk_chk (x : Byte) : (s.setChk x).chk = x := rfl
@[simp] theorem State.setChk_pay (x : Byte) : (s.setChk x).pay = s.pay := rfl
@[simp] theorem State.setChk_ready (x : Byte) : (s.setChk x).ready = s.ready := rfl
@[simp] theorem State.setChk_masterAddr (x : Byte) : (s.setChk x).masterAddr = s.masterAddr := rfl
@[simp] theorem State.setChk_cmdTimeoutMs (x : Byte) : (s.setChk x).cmdTimeoutMs = s.cmdTimeoutMs := rfl
@[simp] theorem State.setChk_wait (x : Byte) : (s.setChk x).wait = s.wait := rfl
@[simp] theorem State.setChk_result (x : Byte) : (s.setChk x).result = s.result := rfl
@[simp] theorem State.setChk_ctxValid (x : Byte) : (s.setChk x).ctxValid = s.ctxValid := rfl
@[simp] theorem State.setChk_timerOk (x : Byte) : (s.setChk x).timerOk = s.timerOk := rfl
@[simp] theorem State.setChk_sendAnswers (x : Byte) : (s.setChk x).sendAnswers = s.sendAnswers := rfl
@[simp] theorem State.setChk_nowMs (x : Byte) : (s.setChk x).nowMs = s.nowMs := rfl
@[simp] theorem State.setChk_script (x : Byte) : (s.setChk x).script = s.script := rfl
@[simp] theorem State.setChk_sent (x : Byte) : (s.setChk x).sent = s.sent := rfl
@[simp] theorem State.setChk_draws (x : Byte) : (s.setChk x).draws = s.draws := rfl
@[simp] theorem State.setChk_built (x : Byte) : (s.setChk x).built = s.built := rfl

/-! ### setPay -/

@[simp] theorem State.setPay_phase (x : Memory) : (s.setPay x).phase = s.phase := rfl
@[simp] theorem State.setPay_dest (x : Memory) : (s.setPay x).dest = s.dest := rfl
@[simp] theorem State.setPay_src (x : Memory) : (s.setPay x).src = s.src := rfl
@[simp] theorem State.setPay_cmd (x : Memory) : (s.setPay x).cmd = s.cmd := rfl
@[simp] theorem State.setPay_len (x : Memory) : (s.setPay x).len = s.len := rfl
@[simp] theorem State.setPay_chk (x : Memory) : (s.setPay x).chk = s.chk := rfl
@[simp] theorem State.setPay_pay (x : Memory) : (s.setPay x).pay = x := rfl
@[simp] theorem State.setPay_ready (x : Memory) : (s.setPay x).ready = s.ready := rfl
@[simp] theorem State.setPay_masterAddr (x : Memory) : (s.setPay x).masterAddr = s.masterAddr := rfl
@[simp] theorem State.setPay_cmdTimeoutMs (x : Memory) : (s.setPay x).cmdTimeoutMs = s.cmdTimeoutMs := rfl
@[simp] theorem State.setPay_wait (x : Memory) : (s.setPay x).wait = s.wait := rfl
@[simp] theorem State.setPay_result (x : Memory) : (s.setPay x).result = s.result := rfl
@[simp] theorem State.setPay_ctxValid (x : Memory) : (s.setPay x).ctxValid = s.ctxValid := rfl
@[simp] theorem State.setPay_timerOk (x : Memory) : (s.setPay x).timerOk = s.timerOk := rfl
@[simp] theorem State.setPay_sendAnswers (x : Memory) : (s.setPay x).sendAnswers = s.sendAnswers := rfl
@[simp] theorem State.setPay_nowMs (x : Memory) : (s.setPay x).nowMs = s.nowMs := rfl
@[simp] theorem State.setPay_script (x : Memory) : (s.setPay x).script = s.script := rfl
@[simp] theorem State.setPay_sent (x : Memory) : (s.setPay x).sent = s.sent := rfl
@[simp] theorem State.setPay_draws (x : Memory) : (s.setPay x).draws = s.draws := rfl
@[simp] theorem State.setPay_built (x : Memory) : (s.setPay x).built = s.built := rfl

/-! ### setReady -/

@[simp] theorem State.setReady_phase (x : Bool) : (s.setReady x).phase = s.phase := rfl
@[simp] theorem State.setReady_dest (x : Bool) : (s.setReady x).dest = s.dest := rfl
@[simp] theorem State.setReady_src (x : Bool) : (s.setReady x).src = s.src := rfl
@[simp] theorem State.setReady_cmd (x : Bool) : (s.setReady x).cmd = s.cmd := rfl
@[simp] theorem State.setReady_len (x : Bool) : (s.setReady x).len = s.len := rfl
@[simp] theorem State.setReady_chk (x : Bool) : (s.setReady x).chk = s.chk := rfl
@[simp] theorem State.setReady_pay (x : Bool) : (s.setReady x).pay = s.pay := rfl
@[simp] theorem State.setReady_ready (x : Bool) : (s.setReady x).ready = x := rfl
@[simp] theorem State.setReady_masterAddr (x : Bool) : (s.setReady x).masterAddr = s.masterAddr := rfl
@[simp] theorem State.setReady_cmdTimeoutMs (x : Bool) : (s.setReady x).cmdTimeoutMs = s.cmdTimeoutMs := rfl
@[simp] theorem State.setReady_wait (x : Bool) : (s.setReady x).wait = s.wait := rfl
@[simp] theorem State.setReady_result (x : Bool) : (s.setReady x).result = s.result := rfl
@[simp] theorem State.setReady_ctxValid (x : Bool) : (s.setReady x).ctxValid = s.ctxValid := rfl
@[simp] theorem State.setReady_timerOk (x : Bool) : (s.setReady x).timerOk = s.timerOk := rfl
@[simp] theorem State.setReady_sendAnswers (x : Bool) : (s.setReady x).sendAnswers = s.sendAnswers := rfl
@[simp] theorem State.setReady_nowMs (x : Bool) : (s.setReady x).nowMs = s.nowMs := rfl
@[simp] theorem State.setReady_script (x : Bool) : (s.setReady x).script = s.script := rfl
@[simp] theorem State.setReady_sent (x : Bool) : (s.setReady x).sent = s.sent := rfl
@[simp] theorem State.setReady_draws (x : Bool) : (s.setReady x).draws = s.draws := rfl
@[simp] theorem State.setReady_built (x : Bool) : (s.setReady x).built = s.built := rfl

/-! ### setTimeout -/

@[simp] theorem State.setTimeout_phase (x : Nat) : (s.setTimeout x).phase = s.phase := rfl
@[simp] theorem State.setTimeout_dest (x : Nat) : (s.setTimeout x).dest = s.dest := rfl
@[simp] theorem State.setTimeout_src (x : Nat) : (s.setTimeout x).src = s.src := rfl
@[simp] theorem State.setTimeout_cmd (x : Nat) : (s.setTimeout x).cmd = s.cmd := rfl
@[simp] theorem State.setTimeout_len (x : Nat) : (s.setTimeout x).len = s.len := rfl
@[simp] theorem State.setTimeout_chk (x : Nat) : (s.setTimeout x).chk = s.chk := rfl
@[simp] theorem State.setTimeout_pay (x : Nat) : (s.setTimeout x).pay = s.pay := rfl
@[simp] theorem State.setTimeout_ready (x : Nat) : (s.setTimeout x).ready = s.ready := rfl
@[simp] theorem State.setTimeout_masterAddr (x : Nat) : (s.setTimeout x).masterAddr = s.masterAddr := rfl
@[simp] theorem State.setTimeout_cmdTimeoutMs (x : Nat) : (s.setTimeout x).cmdTimeoutMs = x := rfl
@[simp] theorem State.setTimeout_wait (x : Nat) : (s.setTimeout x).wait = s.wait := rfl
@[simp] theorem State.setTimeout_result (x : Nat) : (s.setTimeout x).result = s.result := rfl
@[simp] theorem State.setTimeout_ctxValid (x : Nat) : (s.setTimeout x).ctxValid = s.ctxValid := rfl
@[simp] theorem State.setTimeout_timerOk (x : Nat) : (s.setTimeout x).timerOk = s.timerOk := rfl
@[simp] theorem State.setTimeout_sendAnswers (x : Nat) : (s.setTimeout x).sendAnswers = s.sendAnswers := rfl
@[simp] theorem State.setTimeout_nowMs (x : Nat) : (s.setTimeout x).nowMs = s.nowMs := rfl
@[simp] theorem State.setTimeout_script (x : Nat) : (s.setTimeout x).script = s.script := rfl
@[simp] theorem State.setTimeout_sent (x : Nat) : (s.setTimeout x).sent = s.sent := rfl
@[simp] theorem State.setTimeout_draws (x : Nat) : (s.setTimeout x).draws = s.draws := rfl
@[simp] theorem State.setTimeout_built (x : Nat) : (s.setTimeout x).built = s.built := rfl

/-! ### setWait -/

@[simp] theorem State.setWait_phase (x : Option Wait) : (s.setWait x).phase = s.phase := rfl
@[simp] theorem State.setWait_dest (x : Option Wait) : (s.setWait x).dest = s.dest := rfl
@[simp] theorem State.setWait_src (x : Option Wait) : (s.setWait x).src = s.src := rfl
@[simp] theorem State.setWait_cmd (x : Option Wait) : (s.setWait x).cmd = s.cmd := rfl
@[simp] theorem State.setWait_len (x : Option Wait) : (s.setWait x).len = s.len := rfl
@[simp] theorem State.setWait_chk (x : Option Wait) : (s.setWait x).chk = s.chk := rfl
@[simp] theorem State.setWait_pay (x : Option Wait) : (s.setWait x).pay = s.pay := rfl
@[simp] theorem State.setWait_ready (x : Option Wait) : (s.setWait x).ready = s.ready := rfl
@[simp] theorem State.setWait_masterAddr (x : Option Wait) : (s.setWait x).masterAddr = s.masterAddr := rfl
@[simp] theorem State.setWait_cmdTimeoutMs (x : Option Wait) : (s.setWait x).cmdTimeoutMs = s.cmdTimeoutMs := rfl
@[simp] theorem State.setWait_wait (x : Option Wait) : (s.setWait x).wait = x := rfl
@[simp] theorem State.setWait_result (x : Option Wait) : (s.setWait x).result = s.result := rfl
@[simp] theorem State.setWait_ctxValid (x : Option Wait) : (s.setWait x).ctxValid = s.ctxValid := rfl
@[simp] theorem State.setWait_timerOk (x : Option Wait) : (s.setWait x).timerOk = s.timerOk := rfl
@[simp] theorem State.setWait_sendAnswers (x : Option Wait) : (s.setWait x).sendAnswers = s.sendAnswers := rfl
@[simp] theorem State.setWait_nowMs (x : Option Wait) : (s.setWait x).nowMs = s.nowMs := rfl
@[simp] theorem State.setWait_script (x : Option Wait) : (s.setWait x).script = s.script := rfl
@[simp] theorem State.setWait_sent (x : Option Wait) : (s.setWait x).sent = s.sent := rfl
@[simp] theorem State.setWait_draws (x : Option Wait) : (s.setWait x).draws = s.draws := rfl
@[simp] theorem State.setWait_built (x : Option Wait) : (s.setWait x).built = s.built := rfl

/-! ### setResult -/

@[simp] theorem State.setResult_phase (x : Option Result) : (s.setResult x).phase = s.phase := rfl
@[simp] theorem State.setResult_dest (x : Option Result) : (s.setResult x).dest = s.dest := rfl
@[simp] theorem State.setResult_src (x : Option Result) : (s.setResult x).src = s.src := rfl
@[simp] theorem State.setResult_cmd (x : Option Result) : (s.setResult x).cmd = s.cmd := rfl
@[simp] theorem State.setResult_len (x : Option Result) : (s.setResult x).len = s.len := rfl
@[simp] theorem State.setResult_chk (x : Option Result) : (s.setResult x).chk = s.chk := rfl
@[simp] theorem State.setResult_pay (x : Option Result) : (s.setResult x).pay = s.pay := rfl
@[simp] theorem State.setResult_ready (x : Option Result) : (s.setResult x).ready = s.ready := rfl
@[simp] theorem State.setResult_masterAddr (x : Option Result) : (s.setResult x).masterAddr = s.masterAddr := rfl
@[simp] theorem State.setResult_cmdTimeoutMs (x : Option Result) : (s.setResult x).cmdTimeoutMs = s.cmdTimeoutMs := rfl
@[simp] theorem State.setResult_wait (x : Option Result) : (s.setResult x).wait = s.wait := rfl
@[simp] theorem State.setResult_result (x : Option Result) : (s.setResult x).result = x := rfl
@[simp] theorem State.setResult_ctxValid (x : Option Result) : (s.setResult x).ctxValid = s.ctxValid := rfl
@[simp] theorem State.setResult_timerOk (x : Option Result) : (s.setResult x).timerOk = s.timerOk := rfl
@[simp] theorem State.setResult_sendAnswers (x : Option Result) : (s.setResult x).sendAnswers = s.sendAnswers := rfl
@[simp] theorem State.setResult_nowMs (x : Option Result) : (s.setResult x).nowMs = s.nowMs := rfl
@[simp] theorem State.setResult_script (x : Option Result) : (s.setResult x).script = s.script := rfl
@[simp] theorem State.setResult_sent (x : Option Result) : (s.setResult x).sent = s.sent := rfl
@[simp] theorem State.setResult_draws (x : Option Result) : (s.setResult x).draws = s.draws := rfl
@[simp] theorem State.setResult_built (x : Option Result) : (s.setResult x).built = s.built := rfl

/-! ### setNow -/

@[simp] theorem State.setNow_phase (x : Nat) : (s.setNow x).phase = s.phase := rfl
@[simp] theorem State.setNow_dest (x : Nat) : (s.setNow x).dest = s.dest := rfl
@[simp] theorem State.setNow_src (x : Nat) : (s.setNow x).src = s.src := rfl
@[simp] theorem State.setNow_cmd (x : Nat) : (s.setNow x).cmd = s.cmd := rfl
@[simp] theorem State.setNow_len (x : Nat) : (s.setNow x).len = s.len := rfl
@[simp] theorem State.setNow_chk (x : Nat) : (s.setNow x).chk = s.chk := rfl
@[simp] theorem State.setNow_pay (x : Nat) : (s.setNow x).pay = s.pay := rfl
@[simp] theorem State.setNow_ready (x : Nat) : (s.setNow x).ready = s.ready := rfl
@[simp] theorem State.setNow_masterAddr (x : Nat) : (s.setNow x).masterAddr = s.masterAddr := rfl
@[simp] theorem State.setNow_cmdTimeoutMs (x : Nat) : (s.setNow x).cmdTimeoutMs = s.cmdTimeoutMs := rfl
@[simp] theorem State.setNow_wait (x : Nat) : (s.setNow x).wait = s.wait := rfl
@[simp] theorem State.setNow_result (x : Nat) : (s.setNow x).result = s.result := rfl
@[simp] theorem State.setNow_ctxValid (x : Nat) : (s.setNow x).ctxValid = s.ctxValid := rfl
@[simp] theorem State.setNow_timerOk (x : Nat) : (s.setNow x).timerOk = s.timerOk := rfl
@[simp] theorem State.setNow_sendAnswers (x : Nat) : (s.setNow x).sendAnswers = s.sendAnswers := rfl
@[simp] theorem State.setNow_nowMs (x : Nat) : (s.setNow x).nowMs = x := rfl
@[simp] theorem State.setNow_script (x : Nat) : (s.setNow x).script = s.script := rfl
@[simp] theorem State.setNow_sent (x : Nat) : (s.setNow x).sent = s.sent := rfl
@[simp] theorem State.setNow_draws (x : Nat) : (s.setNow x).draws = s.draws := rfl
@[simp] theorem State.setNow_built (x : Nat) : (s.setNow x).built = s.built := rfl

/-! ### setScript -/

@[simp] theorem State.setScript_phase (x : List Line) : (s.setScript x).phase = s.phase := rfl
@[simp] theorem State.setScript_dest (x : List Line) : (s.setScript x).dest = s.dest := rfl
@[simp] theorem State.setScript_src (x : List Line) : (s.setScript x).src = s.src := rfl
@[simp] theorem State.setScript_cmd (x : List Line) : (s.setScript x).cmd = s.cmd := rfl
@[simp] theorem State.setScript_len (x : List Line) : (s.setScript x).len = s.len := rfl
@[simp] theorem State.setScript_chk (x : List Line) : (s.setScript x).chk = s.chk := rfl
@[simp] theorem State.setScript_pay (x : List Line) : (s.setScript x).pay = s.pay := rfl
@[simp] theorem State.setScript_ready (x : List Line) : (s.setScript x).ready = s.ready := rfl
@[simp] theorem State.setScript_masterAddr (x : List Line) : (s.setScript x).masterAddr = s.masterAddr := rfl
@[simp] theorem State.setScript_cmdTimeoutMs (x : List Line) : (s.setScript x).cmdTimeoutMs = s.cmdTimeoutMs := rfl
@[simp] theorem State.setScript_wait (x : List Line) : (s.setScript x).wait = s.wait := rfl
@[simp] theorem State.setScript_result (x : List Line) : (s.setScript x).result = s.result := rfl
@[simp] theorem State.setScript_ctxValid (x : List Line) : (s.setScript x).ctxValid = s.ctxValid := rfl
@[simp] theorem State.setScript_timerOk (x : List Line) : (s.setScript x).timerOk = s.timerOk := rfl
@[simp] theorem State.setScript_sendAnswers (x : List Line) : (s.setScript x).sendAnswers = s.sendAnswers := rfl
@[simp] theorem State.setScript_nowMs (x : List Line) : (s.setScript x).nowMs = s.nowMs := rfl
@[simp] theorem State.setScript_script (x : List Line) : (s.setScript x).script = x := rfl
@[simp] theorem State.setScript_sent (x : List Line) : (s.setScript x).sent = s.sent := rfl
@[simp] theorem State.setScript_draws (x : List Line) : (s.setScript x).draws = s.draws := rfl
@[simp] theorem State.setScript_built (x : List Line) : (s.setScript x).built = s.built := rfl

/-! ### setDraws -/

@[simp] theorem State.setDraws_phase (x : Nat) : (s.setDraws x).phase = s.phase := rfl
@[simp] theorem State.setDraws_dest (x : Nat) : (s.setDraws x).dest = s.dest := rfl
@[simp] theorem State.setDraws_src (x : Nat) : (s.setDraws x).src = s.src := rfl
@[simp] theorem State.setDraws_cmd (x : Nat) : (s.setDraws x).cmd = s.cmd := rfl
@[simp] theorem State.setDraws_len (x : Nat) : (s.setDraws x).len = s.len := rfl
@[simp] theorem State.setDraws_chk (x : Nat) : (s.setDraws x).chk = s.chk := rfl
@[simp] theorem State.setDraws_pay (x : Nat) : (s.setDraws x).pay = s.pay := rfl
@[simp] theorem State.setDraws_ready (x : Nat) : (s.setDraws x).ready = s.ready := rfl
@[simp] theorem State.setDraws_masterAddr (x : Nat) : (s.setDraws x).masterAddr = s.masterAddr := rfl
@[simp] theorem State.setDraws_cmdTimeoutMs (x : Nat) : (s.setDraws x).cmdTimeoutMs = s.cmdTimeoutMs := rfl
@[simp] theorem State.setDraws_wait (x : Nat) : (s.setDraws x).wait = s.wait := rfl
@[simp] theorem State.setDraws_result (x : Nat) : (s.setDraws x).result = s.result := rfl
@[simp] theorem State.setDraws_ctxValid (x : Nat) : (s.setDraws x).ctxValid = s.ctxValid := rfl
@[simp] theorem State.setDraws_timerOk (x : Nat) : (s.setDraws x).timerOk = s.timerOk := rfl
@[simp] theorem State.setDraws_sendAnswers (x : Nat) : (s.setDraws x).sendAnswers = s.sendAnswers := rfl
@[simp] theorem State.setDraws_nowMs (x : Nat) : (s.setDraws x).nowMs = s.nowMs := rfl
@[simp] theorem State.setDraws_script (x : Nat) : (s.setDraws x).script = s.script := rfl
@[simp] theorem State.setDraws_sent (x : Nat) : (s.setDraws x).sent = s.sent := rfl
@[simp] theorem State.setDraws_draws (x : Nat) : (s.setDraws x).draws = x := rfl
@[simp] theorem State.setDraws_built (x : Nat) : (s.setDraws x).built = s.built := rfl

/-! ### decoderReset: phase and ready flag (40 R114) -/

@[simp] theorem State.decoderReset_phase : s.decoderReset.phase = .awaitHeader0 := rfl
@[simp] theorem State.decoderReset_dest : s.decoderReset.dest = s.dest := rfl
@[simp] theorem State.decoderReset_src : s.decoderReset.src = s.src := rfl
@[simp] theorem State.decoderReset_cmd : s.decoderReset.cmd = s.cmd := rfl
@[simp] theorem State.decoderReset_len : s.decoderReset.len = s.len := rfl
@[simp] theorem State.decoderReset_chk : s.decoderReset.chk = s.chk := rfl
@[simp] theorem State.decoderReset_pay : s.decoderReset.pay = s.pay := rfl
@[simp] theorem State.decoderReset_ready : s.decoderReset.ready = false := rfl
@[simp] theorem State.decoderReset_masterAddr : s.decoderReset.masterAddr = s.masterAddr := rfl
@[simp] theorem State.decoderReset_cmdTimeoutMs : s.decoderReset.cmdTimeoutMs = s.cmdTimeoutMs := rfl
@[simp] theorem State.decoderReset_wait : s.decoderReset.wait = s.wait := rfl
@[simp] theorem State.decoderReset_result : s.decoderReset.result = s.result := rfl
@[simp] theorem State.decoderReset_ctxValid : s.decoderReset.ctxValid = s.ctxValid := rfl
@[simp] theorem State.decoderReset_timerOk : s.decoderReset.timerOk = s.timerOk := rfl
@[simp] theorem State.decoderReset_sendAnswers : s.decoderReset.sendAnswers = s.sendAnswers := rfl
@[simp] theorem State.decoderReset_nowMs : s.decoderReset.nowMs = s.nowMs := rfl
@[simp] theorem State.decoderReset_script : s.decoderReset.script = s.script := rfl
@[simp] theorem State.decoderReset_sent : s.decoderReset.sent = s.sent := rfl
@[simp] theorem State.decoderReset_draws : s.decoderReset.draws = s.draws := rfl
@[simp] theorem State.decoderReset_built : s.decoderReset.built = s.built := rfl

/-! ### handOver: the transport's port (42 R154) -/

@[simp] theorem State.handOver_phase (f : List Byte) : (s.handOver f).phase = s.phase := rfl
@[simp] theorem State.handOver_dest (f : List Byte) : (s.handOver f).dest = s.dest := rfl
@[simp] theorem State.handOver_src (f : List Byte) : (s.handOver f).src = s.src := rfl
@[simp] theorem State.handOver_cmd (f : List Byte) : (s.handOver f).cmd = s.cmd := rfl
@[simp] theorem State.handOver_len (f : List Byte) : (s.handOver f).len = s.len := rfl
@[simp] theorem State.handOver_chk (f : List Byte) : (s.handOver f).chk = s.chk := rfl
@[simp] theorem State.handOver_pay (f : List Byte) : (s.handOver f).pay = s.pay := rfl
@[simp] theorem State.handOver_ready (f : List Byte) : (s.handOver f).ready = s.ready := rfl
@[simp] theorem State.handOver_masterAddr (f : List Byte) : (s.handOver f).masterAddr = s.masterAddr := rfl
@[simp] theorem State.handOver_cmdTimeoutMs (f : List Byte) : (s.handOver f).cmdTimeoutMs = s.cmdTimeoutMs := rfl
@[simp] theorem State.handOver_wait (f : List Byte) : (s.handOver f).wait = s.wait := rfl
@[simp] theorem State.handOver_result (f : List Byte) : (s.handOver f).result = s.result := rfl
@[simp] theorem State.handOver_ctxValid (f : List Byte) : (s.handOver f).ctxValid = s.ctxValid := rfl
@[simp] theorem State.handOver_timerOk (f : List Byte) : (s.handOver f).timerOk = s.timerOk := rfl
@[simp] theorem State.handOver_sendAnswers (f : List Byte) : (s.handOver f).sendAnswers = s.sendAnswers.tail := rfl
@[simp] theorem State.handOver_nowMs (f : List Byte) : (s.handOver f).nowMs = s.nowMs := rfl
@[simp] theorem State.handOver_script (f : List Byte) : (s.handOver f).script = s.script := rfl
@[simp] theorem State.handOver_sent (f : List Byte) : (s.handOver f).sent = s.sent ++ [(f, s.transportAnswer)] := rfl
@[simp] theorem State.handOver_draws (f : List Byte) : (s.handOver f).draws = s.draws + 1 := rfl
@[simp] theorem State.handOver_built (f : List Byte) : (s.handOver f).built = s.built := rfl

/-! ### construct: RESET (70 R270) -/

@[simp] theorem State.construct_phase (m : Byte) : (s.construct m).phase = .awaitHeader0 := rfl
@[simp] theorem State.construct_dest (m : Byte) : (s.construct m).dest = Config.freeByte s.draws := rfl
@[simp] theorem State.construct_src (m : Byte) : (s.construct m).src = Config.freeByte (s.draws + 1) := rfl
@[simp] theorem State.construct_cmd (m : Byte) : (s.construct m).cmd = Config.freeByte (s.draws + 2) := rfl
@[simp] theorem State.construct_len (m : Byte) : (s.construct m).len = Config.freeByte (s.draws + 3) := rfl
@[simp] theorem State.construct_chk (m : Byte) : (s.construct m).chk = Config.freeByte (s.draws + 4) := rfl
@[simp] theorem State.construct_pay (m : Byte) : (s.construct m).pay = [] := rfl
@[simp] theorem State.construct_ready (m : Byte) : (s.construct m).ready = false := rfl
@[simp] theorem State.construct_masterAddr (m : Byte) : (s.construct m).masterAddr = m := rfl
@[simp] theorem State.construct_cmdTimeoutMs (m : Byte) : (s.construct m).cmdTimeoutMs = Config.defaultTimeoutMs := rfl
@[simp] theorem State.construct_wait (m : Byte) : (s.construct m).wait = none := rfl
@[simp] theorem State.construct_result (m : Byte) : (s.construct m).result = none := rfl
@[simp] theorem State.construct_ctxValid (m : Byte) : (s.construct m).ctxValid = s.ctxValid := rfl
@[simp] theorem State.construct_timerOk (m : Byte) : (s.construct m).timerOk = s.timerOk := rfl
@[simp] theorem State.construct_sendAnswers (m : Byte) : (s.construct m).sendAnswers = s.sendAnswers := rfl
@[simp] theorem State.construct_nowMs (m : Byte) : (s.construct m).nowMs = s.nowMs := rfl
@[simp] theorem State.construct_script (m : Byte) : (s.construct m).script = s.script := rfl
@[simp] theorem State.construct_sent (m : Byte) : (s.construct m).sent = s.sent := rfl
@[simp] theorem State.construct_draws (m : Byte) : (s.construct m).draws = s.draws + 5 := rfl
@[simp] theorem State.construct_built (m : Byte) : (s.construct m).built = s.built + 1 := rfl

end Sys2Proof.Machine
end

