-- ==== Sys2Proof/Laws/Ops.lean ====
section
/-! SUPPORT. What each shared operation can do, said once, for proofs to cite instead of unfolding it. -/

namespace Sys2Proof.Machine

@[simp] theorem andThen_next (s : State) (f : State → Out) : andThen (.next s) f = f s := rfl
@[simp] theorem andThen_fault (e : Fault) (f : State → Out) : andThen (.fault e) f = .fault e := rfl
@[simp] theorem andThen_refused (e : Refusal) (f : State → Out) : andThen (.refused e) f = .refused e := rfl

/-- A sequence ends in a next state exactly when both of its parts do. -/
theorem andThen_eq_next {o : Out} {f : State → Out} {t : State} :
    andThen o f = .next t ↔ ∃ u, o = .next u ∧ f u = .next t := by
  cases o <;> simp

theorem andThen_assoc (o : Out) (f g : State → Out) : andThen (andThen o f) g = andThen o fun s => andThen (f s) g := by
  cases o <;> rfl

/-- However an operation ends, its next state differs in the result alone. -/
theorem endWith_eq (r : Result) (s : State) : endWith r s = .next (s.setResult (some r)) := by
  cases r <;> rfl

@[simp] theorem whenSelected_true (o : Out) : whenSelected true o = o := rfl
@[simp] theorem whenSelected_false (o : Out) : whenSelected false o = .refused .notSelected := rfl
@[simp] theorem whenDefined_true (o : Out) : whenDefined true o = o := rfl
@[simp] theorem whenDefined_false (o : Out) : whenDefined false o = .refused .outsideDomain := rfl

theorem whenSelected_eq_next {b : Bool} {o : Out} {t : State} :
    whenSelected b o = .next t ↔ b = true ∧ o = .next t := by
  cases b <;> simp

theorem whenDefined_eq_next {b : Bool} {o : Out} {t : State} :
    whenDefined b o = .next t ↔ b = true ∧ o = .next t := by
  cases b <;> simp

theorem andThen_whenSelected (b : Bool) (o : Out) (f : State → Out) :
    andThen (whenSelected b o) f = whenSelected b (andThen o f) := by
  cases b <;> rfl

/-- Where the awaited payload byte goes when `rem ≤ len ≤ 64` (10 R23). -/
theorem State.payOffset_eq {s : State} {left : Fin maxRxLen} (h : left.val + 1 ≤ s.len.toNat)
    (h' : s.len.toNat ≤ payCells) : s.payOffset left = some (s.len.toNat - (left.val + 1)) := by
  simp only [State.payOffset]
  rw [if_pos ⟨h, by omega⟩]

/-- Storing a payload byte writes one existing cell of `pay` and nothing else (10 R25). -/
theorem storePayload_eq_next {left : Fin maxRxLen} {b : Byte} {s t : State} :
    storePayload left b s = .next t ↔
      left.val + 1 ≤ s.len.toNat ∧ s.len.toNat - (left.val + 1) < payCells ∧
        t = s.setPay (s.pay.write (s.len.toNat - (left.val + 1)) b) := by
  simp only [storePayload, State.payOffset]
  split
  · rename_i off h
    split at h <;> simp_all [eq_comm]
  · rename_i h
    split at h <;> simp_all

/-- CHECK on a held frame whose span is readable: the verdict is the result, `ready` is cleared (41 R131). -/
theorem checkFrame_eq {target expCmd : Byte} {cap : Nat} {s : State} {p : List Byte} (h : s.payload = some p) :
    checkFrame target expCmd cap s =
      .next (((s.setReady false).setDraws (s.draws + 1)).setResult (some (s.verdict target expCmd cap p))) := by
  simp [checkFrame, h, endWith_eq]

/-- The only way CHECK reaches a next state. -/
theorem checkFrame_eq_next {target expCmd : Byte} {cap : Nat} {s t : State} :
    checkFrame target expCmd cap s = .next t ↔ ∃ p, s.payload = some p ∧
      t = ((s.setReady false).setDraws (s.draws + 1)).setResult (some (s.verdict target expCmd cap p)) := by
  cases h : s.payload with
  | none => simp [checkFrame, h]
  | some p => simp [checkFrame_eq h, eq_comm]

/-- How a wait concludes: with CHECK's result, delivered (45 R226). -/
theorem conclude_eq_next {w : Wait} {s t : State} :
    conclude w s = .next t ↔ ∃ p, s.payload = some p ∧
      t = (((s.setReady false).setDraws (s.draws + 1)).setResult
        (some (w.deliver (s.verdict w.target w.expCmd w.cap p)))).setWait none := by
  simp only [conclude, andThen_eq_next, checkFrame_eq_next]
  constructor
  · rintro ⟨u, ⟨p, hp, rfl⟩, ht⟩
    refine ⟨p, hp, ?_⟩
    injection ht with ht
    exact ht.symm
  · rintro ⟨p, hp, rfl⟩
    exact ⟨_, ⟨p, hp, rfl⟩, rfl⟩

/-- A wait whose frame's span is readable concludes (45 R226). -/
theorem conclude_eq {w : Wait} {s : State} {p : List Byte} (h : s.payload = some p) :
    conclude w s = .next ((((s.setReady false).setDraws (s.draws + 1)).setResult
      (some (w.deliver (s.verdict w.target w.expCmd w.cap p)))).setWait none) :=
  conclude_eq_next.2 ⟨p, h, rfl⟩

/-- What SEND can do: report an error with nothing changed, or hand one frame over (42 R150). -/
theorem transmit_cases (target c : Byte) (payload : List Byte) (s : State) :
    (∃ e, s.sendError payload = some e ∧ transmit target c payload s = (some e, s)) ∨
      (s.sendError payload = none ∧ transmit target c payload s =
        (if s.transportAnswer then none else some .transportFailure,
          s.handOver (encodeFrame target s.masterAddr c payload))) := by
  unfold transmit
  cases h : s.sendError payload with
  | some e => exact .inl ⟨e, rfl, rfl⟩
  | none => exact .inr ⟨rfl, rfl⟩

end Sys2Proof.Machine
end

