-- ==== Sys2Proof/Laws/PerInstr.lean ====
section
/-! SUPPORT. Statements made per instruction. EncodingSize: the bytes of a well-formed instruction, where it has an
encoding, number 1 to 71 (20 R51, 30 R72). -/

namespace Sys2Proof.Laws

/-- A well-formed instruction's encoding, if it has one, is 1 to 71 bytes long. -/
def EncodingSize.Statement (i : Instr) : Prop :=
  i.WellFormed → ∀ bs, encode i = some bs → 1 ≤ bs.length ∧ bs.length ≤ longestBytes

theorem EncodingSize.of_byte {i : Instr} {b : Byte} (h : encode i = some [b]) : EncodingSize.Statement i := by
  intro _ bs hbs
  rw [h] at hbs
  cases hbs
  simp [longestBytes, maxRxLen]

theorem EncodingSize.of_none {i : Instr} (h : encode i = none) : EncodingSize.Statement i := by
  intro _ bs hbs
  rw [h] at hbs
  cases hbs

theorem EncodingSize.rxbDiscard (b : Byte) : EncodingSize.Statement (.rxbDiscard b) :=
  EncodingSize.of_byte rfl

theorem EncodingSize.rxbH0Hit : EncodingSize.Statement (.rxbH0Hit) :=
  EncodingSize.of_byte rfl

theorem EncodingSize.rxbH0Miss (b : Byte) : EncodingSize.Statement (.rxbH0Miss b) :=
  EncodingSize.of_byte rfl

theorem EncodingSize.rxbH1Hit : EncodingSize.Statement (.rxbH1Hit) :=
  EncodingSize.of_byte rfl

theorem EncodingSize.rxbH1Miss (b : Byte) : EncodingSize.Statement (.rxbH1Miss b) :=
  EncodingSize.of_byte rfl

theorem EncodingSize.rxbDest (b : Byte) : EncodingSize.Statement (.rxbDest b) :=
  EncodingSize.of_byte rfl

theorem EncodingSize.rxbSrc (b : Byte) : EncodingSize.Statement (.rxbSrc b) :=
  EncodingSize.of_byte rfl

theorem EncodingSize.rxbCmd (b : Byte) : EncodingSize.Statement (.rxbCmd b) :=
  EncodingSize.of_byte rfl

theorem EncodingSize.rxbLenZero : EncodingSize.Statement (.rxbLenZero) :=
  EncodingSize.of_byte rfl

theorem EncodingSize.rxbLenOk (b : Byte) : EncodingSize.Statement (.rxbLenOk b) :=
  EncodingSize.of_byte rfl

theorem EncodingSize.rxbLenBad (b : Byte) : EncodingSize.Statement (.rxbLenBad b) :=
  EncodingSize.of_byte rfl

theorem EncodingSize.rxbPayMore (b : Byte) : EncodingSize.Statement (.rxbPayMore b) :=
  EncodingSize.of_byte rfl

theorem EncodingSize.rxbPayLast (b : Byte) : EncodingSize.Statement (.rxbPayLast b) :=
  EncodingSize.of_byte rfl

theorem EncodingSize.rxbChkAccept (b : Byte) : EncodingSize.Statement (.rxbChkAccept b) :=
  EncodingSize.of_byte rfl

theorem EncodingSize.rxbChkDrop (b : Byte) : EncodingSize.Statement (.rxbChkDrop b) :=
  EncodingSize.of_byte rfl

theorem EncodingSize.reset (master : Byte) : EncodingSize.Statement (.reset master) :=
  EncodingSize.of_none rfl

theorem EncodingSize.decReset : EncodingSize.Statement (.decReset) :=
  EncodingSize.of_none rfl

theorem EncodingSize.check (target expCmd : Byte) (cap : Nat) : EncodingSize.Statement (.check target expCmd cap) :=
  EncodingSize.of_none rfl

theorem EncodingSize.send (target command : Byte) (payload : List Byte) : EncodingSize.Statement (.send target command payload) :=
  EncodingSize.of_none rfl

theorem EncodingSize.encode (d src c : Byte) (payload : List Byte) : EncodingSize.Statement (.encode d src c payload) :=
  EncodingSize.of_none rfl

theorem EncodingSize.await (target expCmd : Byte) (timeoutMs cap : Nat) : EncodingSize.Statement (.await target expCmd timeoutMs cap) :=
  EncodingSize.of_none rfl

theorem EncodingSize.setTimeout (ms : Nat) : EncodingSize.Statement (.setTimeout ms) :=
  EncodingSize.of_none rfl

theorem EncodingSize.op (target c : Byte) (req : Request) (cap : Nat) (rsp : Response) : EncodingSize.Statement (.op target c req cap rsp) :=
  EncodingSize.of_none rfl

theorem EncodingSize.packU8 (v : Byte) : EncodingSize.Statement (.packU8 v) :=
  EncodingSize.of_none rfl

theorem EncodingSize.unpackU8 (bs : List Byte) (a : Nat) : EncodingSize.Statement (.unpackU8 bs a) :=
  EncodingSize.of_none rfl

theorem EncodingSize.packU16 (v : Word16) : EncodingSize.Statement (.packU16 v) :=
  EncodingSize.of_none rfl

theorem EncodingSize.unpackU16 (bs : List Byte) (a : Nat) : EncodingSize.Statement (.unpackU16 bs a) :=
  EncodingSize.of_none rfl

theorem EncodingSize.packS16 (v : Int) : EncodingSize.Statement (.packS16 v) :=
  EncodingSize.of_none rfl

theorem EncodingSize.unpackS16 (bs : List Byte) (a : Nat) : EncodingSize.Statement (.unpackS16 bs a) :=
  EncodingSize.of_none rfl

theorem EncodingSize.packF32 (w : Word32) : EncodingSize.Statement (.packF32 w) :=
  EncodingSize.of_none rfl

theorem EncodingSize.unpackF32 (bs : List Byte) (a : Nat) : EncodingSize.Statement (.unpackF32 bs a) :=
  EncodingSize.of_none rfl

theorem EncodingSize.raw (payload : List Byte) : EncodingSize.Statement (.raw payload) :=
  EncodingSize.of_none rfl

theorem EncodingSize.packPid (pTerm iTerm dTerm gTerm : Word32) : EncodingSize.Statement (.packPid pTerm iTerm dTerm gTerm) :=
  EncodingSize.of_none rfl

theorem EncodingSize.unpackPid (bs : List Byte) (a : Nat) : EncodingSize.Statement (.unpackPid bs a) :=
  EncodingSize.of_none rfl

theorem EncodingSize.packAllSet (reading : Reading) (motors : List (Int × Byte)) : EncodingSize.Statement (.packAllSet reading motors) :=
  EncodingSize.of_none rfl

theorem EncodingSize.unpackAllGet (reading : Reading) (payload : List Byte) (cap : Nat) : EncodingSize.Statement (.unpackAllGet reading payload cap) :=
  EncodingSize.of_none rfl

theorem EncodingSize.unpackCali (payload : List Byte) (capMotors capThumb : Nat) : EncodingSize.Statement (.unpackCali payload capMotors capThumb) :=
  EncodingSize.of_none rfl

theorem EncodingSize.packCustom (mask : Byte) (n : Nat) (speed position : List Word16) (angle : List Int) : EncodingSize.Statement (.packCustom mask n speed position angle) :=
  EncodingSize.of_none rfl

theorem EncodingSize.unpackCustom (mask : Byte) (payload : List Byte) (cap : Nat) : EncodingSize.Statement (.unpackCustom mask payload cap) :=
  EncodingSize.of_none rfl

theorem EncodingSize.frame (d src command : Byte) (payload : List Byte) (lrc : Byte) : EncodingSize.Statement (.frame d src command payload lrc) := by
  intro h bs hbs
  cases hbs
  have h' : payload.length ≤ maxRxLen := of_decide_eq_true h
  simp only [frameBytes, List.length_append, List.length_cons, List.length_nil, longestBytes, maxRxLen] at *
  omega

theorem EncodingSize.cmdErrflag (opc : BitVec 7) : EncodingSize.Statement (.cmdErrflag opc) :=
  EncodingSize.of_byte rfl

theorem EncodingSize.cmdCustom : EncodingSize.Statement (.cmdCustom) :=
  EncodingSize.of_byte rfl

theorem EncodingSize.cmdGet (opc : BitVec 7) : EncodingSize.Statement (.cmdGet opc) :=
  EncodingSize.of_byte rfl

theorem EncodingSize.cmdSet (opc : BitVec 7) : EncodingSize.Statement (.cmdSet opc) :=
  EncodingSize.of_byte rfl

theorem EncodingSize.cmdUnassigned (opc : BitVec 7) : EncodingSize.Statement (.cmdUnassigned opc) :=
  EncodingSize.of_byte rfl

end Sys2Proof.Laws
end

