-- ==== Sys2Proof/Laws/Receive.lean ====
section
/-! SUPPORT. Receiving bytes: the step's route and FEED's are one, and only the decoder's registers move. -/

namespace Sys2Proof.Machine

theorem DecoderOnly.refl (s : State) : DecoderOnly s s := rfl

theorem DecoderOnly.trans {s t u : State} (h : DecoderOnly s t) (h' : DecoderOnly t u) : DecoderOnly s u := by
  unfold DecoderOnly at *
  rw [h'] at *
  rw [h]

/-- The step's route for a received byte (40 R100) is the one FEED takes. -/
theorem exec_decodeByte (b : Byte) (s : State) : exec (decodeByte s.selector b) s = receive b s := by
  unfold receive
  generalize s.selector = sel
  unfold decodeByte
  split
  · rfl
  · split <;> first | rfl | (split <;> first | rfl | (split <;> rfl))

/-- A transition writes decoder registers only (60 R250). -/
theorem runTransition_decoderOnly {i : Instr} {s t : State} (h : runTransition i s = .next t) : DecoderOnly s t := by
  cases i <;> simp only [runTransition, execRxbDiscard, execRxbH0Hit, execRxbH0Miss, execRxbH1Hit, execRxbH1Miss,
    execRxbDest, execRxbSrc, execRxbCmd, execRxbLenZero, execRxbLenOk, execRxbLenBad, execRxbChkAccept,
    execRxbChkDrop, whenSelected_eq_next, Host.Outcome.next.injEq, reduceCtorEq] at h
  case rxbPayMore b =>
    simp only [execRxbPayMore] at h
    split at h
    · simp only [whenSelected_eq_next, andThen_eq_next, storePayload_eq_next] at h
      obtain ⟨-, u, ⟨-, -, rfl⟩, ht⟩ := h
      cases ht
      rfl
    · cases h
  case rxbPayLast b =>
    simp only [execRxbPayLast, whenSelected_eq_next, andThen_eq_next, storePayload_eq_next] at h
    obtain ⟨-, u, ⟨-, -, rfl⟩, ht⟩ := h
    cases ht
    rfl
  all_goals (obtain ⟨-, rfl⟩ := h; rfl)

/-- Receiving a byte writes decoder registers only (60 R250). -/
theorem receive_decoderOnly {b : Byte} {s t : State} (h : receive b s = .next t) : DecoderOnly s t :=
  runTransition_decoderOnly h

/-- FEED writes decoder registers only (60 R250). -/
theorem feed_decoderOnly {bs : List Byte} {s t : State} (h : feed bs s = .next t) : DecoderOnly s t := by
  induction bs generalizing s with
  | nil => cases h; rfl
  | cons b bs ih =>
    obtain ⟨u, hu, ht⟩ := andThen_eq_next.1 h
    exact (receive_decoderOnly hu).trans (ih ht)

/-! ### What one received byte does, phase by phase (40 R101 to R112) -/

theorem receive_ready {b : Byte} {s : State} (h : s.ready = true) : receive b s = .next s := by
  simp [receive, State.selector, decodeByte, runTransition, execRxbDiscard, h]

/-- The decoding of a byte by a decoder that takes bytes. -/
theorem receive_eq (b : Byte) {s : State} (h : s.ready = false) :
    receive b s = runTransition (decodeByte ⟨false, s.phase, decide (s.dest = s.masterAddr)⟩ b) s := by
  simp [receive, State.selector, h]

theorem receive_header0 {s : State} (h : s.ready = false) (hp : s.phase = .awaitHeader0) :
    receive header0 s = .next (s.setPhase .awaitHeader1) := by
  simp [receive_eq _ h, hp, decodeByte, runTransition, execRxbH0Hit, State.awaits, h]

theorem receive_not_header0 {s : State} {b : Byte} (h : s.ready = false) (hp : s.phase = .awaitHeader0)
    (hb : b ≠ header0) : receive b s = .next s := by
  simp [receive_eq _ h, hp, decodeByte, runTransition, execRxbH0Miss, State.awaits, h, hb]

theorem receive_header1 {s : State} (h : s.ready = false) (hp : s.phase = .awaitHeader1) :
    receive header1 s = .next (s.setPhase .awaitDestAddr) := by
  simp [receive_eq _ h, hp, decodeByte, runTransition, execRxbH1Hit, State.awaits, h]

theorem receive_not_header1 {s : State} {b : Byte} (h : s.ready = false) (hp : s.phase = .awaitHeader1)
    (hb : b ≠ header1) : receive b s = .next (s.setPhase .awaitHeader0) := by
  simp [receive_eq _ h, hp, decodeByte, runTransition, execRxbH1Miss, State.awaits, h, hb]

theorem receive_dest {s : State} (b : Byte) (h : s.ready = false) (hp : s.phase = .awaitDestAddr) :
    receive b s = .next ((s.setDest b).setPhase .awaitSrcAddr) := by
  simp [receive_eq _ h, hp, decodeByte, runTransition, execRxbDest, State.awaits, h]

theorem receive_src {s : State} (b : Byte) (h : s.ready = false) (hp : s.phase = .awaitSrcAddr) :
    receive b s = .next ((s.setSrc b).setPhase .awaitCommand) := by
  simp [receive_eq _ h, hp, decodeByte, runTransition, execRxbSrc, State.awaits, h]

theorem receive_cmd {s : State} (b : Byte) (h : s.ready = false) (hp : s.phase = .awaitCommand) :
    receive b s = .next ((s.setCmd b).setPhase .awaitLength) := by
  simp [receive_eq _ h, hp, decodeByte, runTransition, execRxbCmd, State.awaits, h]

theorem receive_len_zero {s : State} (h : s.ready = false) (hp : s.phase = .awaitLength) :
    receive 0 s = .next ((s.setLen 0).setPhase .awaitChecksum) := by
  simp [receive_eq _ h, hp, decodeByte, runTransition, execRxbLenZero, State.awaits, h]

theorem receive_len_ok {s : State} {b : Byte} (h : s.ready = false) (hp : s.phase = .awaitLength) (h0 : b ≠ 0)
    (h64 : b.toNat ≤ 64) :
    receive b s = .next ((s.setLen b).setPhase (.awaitPayload (Fin.ofNat maxRxLen (b.toNat - 1)))) := by
  have h1 : 1 ≤ b.toNat := Nat.pos_of_ne_zero fun h' => h0 (BitVec.eq_of_toNat_eq h')
  simp [receive_eq _ h, hp, decodeByte, runTransition, execRxbLenOk, State.awaits, h, show ¬ b = 0#8 from h0, h64,
    maxRxLen, h1]

theorem receive_len_bad {s : State} {b : Byte} (h : s.ready = false) (hp : s.phase = .awaitLength)
    (h64 : 64 < b.toNat) : receive b s = .next (s.setPhase .awaitHeader0) := by
  have h0 : ¬ b = 0#8 := by
    rintro rfl
    simp at h64
  simp [receive_eq _ h, hp, decodeByte, runTransition, execRxbLenBad, State.awaits, h, h0, Nat.not_le.2 h64, maxRxLen,
    h64]

theorem receive_payload {s : State} (b : Byte) {left : Fin maxRxLen} (h : s.ready = false)
    (hp : s.phase = .awaitPayload left) (h1 : left.val + 1 ≤ s.len.toNat) (h2 : s.len.toNat ≤ 64) :
    receive b s = .next ((s.setPay (s.pay.write (s.len.toNat - (left.val + 1)) b)).setPhase
      (if left = 0 then .awaitChecksum else .awaitPayload (left - 1))) := by
  by_cases hl : left = 0
  · subst hl
    simp [receive_eq _ h, hp, decodeByte, runTransition, execRxbPayLast, State.awaits, h, storePayload,
      State.payOffset_eq h1 h2]
  · simp [receive_eq _ h, hp, decodeByte, runTransition, execRxbPayMore, h, storePayload, State.payOffset_eq h1 h2, hl]

theorem receive_checksum {s : State} (b : Byte) (h : s.ready = false) (hp : s.phase = .awaitChecksum) :
    receive b s = .next (((s.setChk b).setReady (decide (s.dest = s.masterAddr))).setPhase .awaitHeader0) := by
  by_cases hd : s.dest = s.masterAddr
  · simp [receive_eq _ h, hp, decodeByte, runTransition, execRxbChkAccept, State.awaits, h, hd]
  · simp [receive_eq _ h, hp, decodeByte, runTransition, execRxbChkDrop, State.awaits, h, hd]
    cases s
    simp_all [State.setReady, State.setChk, State.setPhase]

/-- The remaining count goes down by one (10 R22). -/
theorem left_sub_one {left : Fin maxRxLen} (h : left ≠ 0) : (left - 1).val + 1 = left.val := by
  have : left.val ≠ 0 := fun h' => h (Fin.ext h')
  rw [Fin.val_sub_one_of_ne_zero h]
  omega

/-! ### Bytes and the registers they do not read (60 R250) -/

/-- The state with another call in progress, result, reading of the timer and script. -/
def State.inCall (w : Option Wait) (r : Option Result) (n : Nat) (l : List Line) (s : State) : State :=
  { s with wait := w, result := r, nowMs := n, script := l }

theorem storePayload_inCall (left : Fin maxRxLen) (b : Byte) (w : Option Wait) (r : Option Result) (n : Nat)
    (l : List Line) (s : State) :
    storePayload left b (s.inCall w r n l) = andThen (storePayload left b s) fun t => .next (t.inCall w r n l) := by
  simp only [storePayload, show (s.inCall w r n l).payOffset left = s.payOffset left from rfl]
  cases s.payOffset left <;> rfl

/-- A byte reads neither the call in progress, nor the result, the timer's reading or the script. -/
theorem receive_inCall (b : Byte) (w : Option Wait) (r : Option Result) (n : Nat) (l : List Line) (s : State) :
    receive b (s.inCall w r n l) = andThen (receive b s) fun t => .next (t.inCall w r n l) := by
  simp only [receive, show (s.inCall w r n l).selector = s.selector from rfl]
  cases decodeByte s.selector b with
  | rxbPayMore c =>
    simp only [runTransition, execRxbPayMore, show (s.inCall w r n l).phase = s.phase from rfl]
    cases s.phase <;> try rfl
    simp only [storePayload_inCall, andThen_whenSelected, andThen_assoc]
    rfl
  | rxbPayLast c =>
    simp only [runTransition, execRxbPayLast, storePayload_inCall, andThen_whenSelected, andThen_assoc]
    rfl
  | _ =>
    simp only [runTransition, execRxbDiscard, execRxbH0Hit, execRxbH0Miss, execRxbH1Hit, execRxbH1Miss, execRxbDest,
      execRxbSrc, execRxbCmd, execRxbLenZero, execRxbLenOk, execRxbLenBad, execRxbChkAccept, execRxbChkDrop,
      andThen_whenSelected]
    rfl

/-- The same of any number of bytes. -/
theorem feed_inCall (bs : List Byte) (w : Option Wait) (r : Option Result) (n : Nat) (l : List Line) (s : State) :
    feed bs (s.inCall w r n l) = andThen (feed bs s) fun t => .next (t.inCall w r n l) := by
  induction bs generalizing s with
  | nil => rfl
  | cons b bs ih =>
    simp only [feed, receive_inCall, andThen_assoc]
    congr 1
    funext t
    exact ih t

/-- The timer may be read before or after the bytes. -/
theorem feed_setNow {bs : List Byte} {s t : State} (n : Nat) (h : feed bs s = .next t) :
    feed bs (s.setNow n) = .next (t.setNow n) := by
  have hd : t = _ := feed_decoderOnly h
  rw [show s.setNow n = s.inCall s.wait s.result n s.script from rfl, feed_inCall, h, andThen_next, hd]
  rfl

end Sys2Proof.Machine
end

