-- ==== Sys2Proof/Laws/Transaction.lean ====
section
/-! SUPPORT. The wait loop: where it stops, that it does not read the script it runs beside, and what an
iteration that finds neither frame nor deadline does. -/

namespace Sys2Proof.Machine

/-- With no wait in progress the loop runs over no line. -/
theorem awaitLines_of_wait_none (l : List Line) {s : State} (h : s.wait = none) :
    awaitLines l s = .next (s.setScript l) := by
  cases l with
  | nil => rfl
  | cons x l => cases x <;> simp [awaitLines, h]

/-- The loop stops before a line that does not answer it. -/
theorem awaitLines_of_no_answer {l : List Line} (s : State) (h : l.head?.any answersWait = false) :
    awaitLines l s = .next (s.setScript l) := by
  cases l with
  | nil => rfl
  | cons x l => cases x <;> simp_all [awaitLines, answersWait]

/-- An iteration that delivers these bytes, with neither frame nor deadline, moves the decoder and the timer. -/
theorem iterate_of_neither {w : Wait} {bs : List Byte} {d : Deadline} {s t : State} (keep : Bool)
    (hf : feed bs s = .next t) (hr : t.ready = false) (he : w.expired d s.nowMs = false) :
    iterate w bs d keep s = .next (t.setNow (d.reading s.nowMs)) := by
  have hn : t.nowMs = s.nowMs := by
    have hd : t = _ := feed_decoderOnly hf
    rw [hd]
  simp [iterate, hf, hn, he, hr]

/-- An iteration does not read the script it runs beside. -/
theorem iterate_setScript (w : Wait) (bs : List Byte) (d : Deadline) (keep : Bool) (l : List Line) (s : State) :
    iterate w bs d keep (s.setScript l) = andThen (iterate w bs d keep s) fun t => .next (t.setScript l) := by
  rw [iterate, iterate, show s.setScript l = s.inCall s.wait s.result s.nowMs l from rfl, feed_inCall]
  cases hf : feed bs s with
  | fault => rfl
  | refused => rfl
  | next t =>
    have hd : t = _ := feed_decoderOnly hf
    have ht : t.inCall s.wait s.result s.nowMs l = t.setScript l := by
      rw [hd]
      rfl
    have hc : conclude w ((t.setScript l).setNow (d.reading t.nowMs)) =
        andThen (conclude w (t.setNow (d.reading t.nowMs))) fun t => .next (t.setScript l) := by
      have hpay : ((t.setScript l).setNow (d.reading t.nowMs)).payload = (t.setNow (d.reading t.nowMs)).payload :=
        State.payload_congr (t := (t.setScript l).setNow (d.reading t.nowMs)) rfl rfl rfl
      cases hp : (t.setNow (d.reading t.nowMs)).payload with
      | some p =>
        rw [conclude_eq hp, conclude_eq (hpay.trans hp)]
        rfl
      | none =>
        simp only [conclude, checkFrame, hpay, hp]
        rfl
    simp only [andThen_next, ht]
    rw [show (t.setScript l).nowMs = t.nowMs from rfl, hc,
      show ((t.setScript l).setNow (d.reading t.nowMs)).ready = (t.setNow (d.reading t.nowMs)).ready from rfl]
    split <;> split <;> rfl

/-- Nor does the loop: it leaves the lines it was given and did not run over. -/
theorem awaitLines_setScript (ls l : List Line) (s : State) : awaitLines ls (s.setScript l) = awaitLines ls s := by
  induction ls generalizing s with
  | nil => rfl
  | cons x ls ih =>
    cases x with
    | poll bs d keep =>
      simp only [awaitLines, State.setScript_wait]
      cases s.wait with
      | none => rfl
      | some w =>
        simp only [iterate_setScript, andThen_assoc]
        congr 1
        funext t
        exact ih t
    | abort =>
      simp only [awaitLines, State.setScript_wait]
      cases s.wait <;> rfl
    | rxb b => rfl
    | call i => rfl

end Sys2Proof.Machine
end

