-- ==== Sys2Proof/Tests/Slice0.lean ====
section
/-! SUPPORT. Tests: the well-formedness checks refuse, words written out from 30 R70, R74 and 40 R100 decode, the test
vectors V-… of 95_test_vectors.md as single steps, and for every statement with hypotheses a state and operands that
meet them all. Every expected value comes from the spec's vectors or by hand from the rule named. -/

namespace Sys2Proof.Tests

open Sys2Proof.Machine

/-! ### Helpers -/

/-- The start state of the vectors: MASTER_ADDR = 01, timeout 50. -/
def start : State := { State.reset with masterAddr := 1, cmdTimeoutMs := 50 }

/-- The state reached, if there is one. -/
def reached : Out → Option State
  | .next s => some s
  | _ => none

/-- The result reached, if there is one. -/
def resultOf (o : Out) : Option Result := (reached o).bind State.result

/-- Why there is none. -/
def stopped : Out → Option (Fault ⊕ Refusal)
  | .next _ => none
  | .fault f => some (.inl f)
  | .refused r => some (.inr r)

/-- The start state after these bytes. -/
def fed (bs : List Byte) : State := (reached (feed bs start)).getD start

/-- Phase and ready flag, as the vectors write a state. -/
def shown (s : State) : Phase × Bool := (s.phase, s.ready)

/-- What a decoding answers, where it answers. -/
def decoded (port : Port) (bs : List Byte) : Option (Instr × List Byte) :=
  match decode port bs with
  | .ok r => some r
  | .error _ => none

/-- Why it does not. -/
def undecoded (port : Port) (bs : List Byte) : Option DecodeError :=
  match decode port bs with
  | .ok _ => none
  | .error e => some e

/-- The frame of V-C1. -/
def good : List Byte := [0x55, 0xAA, 0x01, 0x02, 0x01, 0x02, 0x34, 0x12, 0x26]

/-- A selector of a decoder that takes bytes. -/
def at' (p : Phase) : Selector := ⟨false, p, false⟩

/-! ### Well-formedness: one ill-formed term per check -/

theorem test_wellFormed_refuses :
    ¬ (Instr.rxbH0Miss 0x55).WellFormed ∧ ¬ (Instr.rxbH1Miss 0xAA).WellFormed ∧ ¬ (Instr.rxbLenOk 0).WellFormed ∧
    ¬ (Instr.rxbLenOk 65).WellFormed ∧ ¬ (Instr.rxbLenBad 64).WellFormed ∧
    ¬ (Instr.encode 2 1 1 (List.replicate 64 0)).WellFormed ∧
    ¬ (Instr.unpackU8 [1] 1).WellFormed ∧ ¬ (Instr.unpackU16 [1, 2] 1).WellFormed ∧
    ¬ (Instr.packS16 32768).WellFormed ∧ ¬ (Instr.packS16 (-32769)).WellFormed ∧
    ¬ (Instr.unpackS16 [1] 0).WellFormed ∧ ¬ (Instr.unpackF32 [1, 2, 3] 0).WellFormed := by decide

theorem test_wellFormed_refuses_layouts :
    ¬ (Instr.packAllSet .unsigned [(-1, 0)]).WellFormed ∧ ¬ (Instr.packAllSet .signed [(32768, 0)]).WellFormed ∧
    ¬ (Instr.packCustom 0x03 2 [1, 2] [1] []).WellFormed ∧ ¬ (Instr.packCustom 0x04 1 [] [] [40000]).WellFormed ∧
    ¬ (Instr.packCustom 0x00 1 [1] [] []).WellFormed ∧ ¬ (Instr.frame 1 2 1 (List.replicate 65 0) 0).WellFormed ∧
    ¬ (Instr.cmdGet 0x26).WellFormed ∧ ¬ (Instr.cmdSet 0x5F).WellFormed ∧ ¬ (Instr.cmdUnassigned 0x25).WellFormed ∧
    ¬ (Instr.cmdUnassigned 0x40).WellFormed ∧ ¬ (Instr.cmdUnassigned 0x5F).WellFormed := by decide

/-- OP: the error flag in the command, a layout with an unassigned code, the custom code without the custom layouts,
the custom layouts without the code, two masks, a value out of range, unequal arrays (30 R74, R81, 43 R175, 44 R198,
R200, 45 R230). -/
theorem test_wellFormed_refuses_op :
    ¬ (Instr.op 2 0x81 (.raw []) 64 .raw).WellFormed ∧ ¬ (Instr.op 2 0x26 (.pid 0 0 0 0) 64 .raw).WellFormed ∧
    ¬ (Instr.op 2 0x5F (.raw []) 64 .raw).WellFormed ∧
    ¬ (Instr.op 2 0x01 (.custom 0x08 0 [] [] []) 64 (.custom 0x08 6)).WellFormed ∧
    ¬ (Instr.op 2 0x5F (.custom 0x08 0 [] [] []) 64 (.custom 0x80 6)).WellFormed ∧
    ¬ (Instr.op 2 0x45 (.allSet .unsigned [(65536, 0)]) 64 .raw).WellFormed ∧
    ¬ (Instr.op 2 0x5F (.custom 0x01 2 [1] [] []) 64 (.custom 0x01 6)).WellFormed := by decide

/-! ### Decoding: words written out bit by bit -/

/-- RXB rows, from the byte and state columns of the opcode table (40 R101 to R112). -/
theorem test_decode_rxb :
    decoded (.byte ⟨true, .awaitHeader0, true⟩) [0b01010101] = some (.rxbDiscard 0x55, []) ∧
    decoded (.byte (at' .awaitHeader0)) [0b01010101] = some (.rxbH0Hit, []) ∧
    decoded (.byte (at' .awaitHeader0)) [0b01010100] = some (.rxbH0Miss 0x54, []) ∧
    decoded (.byte (at' .awaitHeader1)) [0b10101010] = some (.rxbH1Hit, []) ∧
    decoded (.byte (at' .awaitHeader1)) [0b01010101] = some (.rxbH1Miss 0x55, []) ∧
    decoded (.byte (at' .awaitDestAddr)) [0b00000001] = some (.rxbDest 0x01, []) ∧
    decoded (.byte (at' .awaitSrcAddr)) [0b00000010] = some (.rxbSrc 0x02, []) ∧
    decoded (.byte (at' .awaitCommand)) [0b11000101] = some (.rxbCmd 0xC5, []) := by decide

theorem test_decode_rxb_tail :
    decoded (.byte (at' .awaitLength)) [0b00000000] = some (.rxbLenZero, []) ∧
    decoded (.byte (at' .awaitLength)) [0b01000000] = some (.rxbLenOk 64, []) ∧
    decoded (.byte (at' .awaitLength)) [0b01000001] = some (.rxbLenBad 65, []) ∧
    decoded (.byte (at' (.awaitPayload 1))) [0b00110100] = some (.rxbPayMore 0x34, []) ∧
    decoded (.byte (at' (.awaitPayload 0))) [0b00010010] = some (.rxbPayLast 0x12, []) ∧
    decoded (.byte ⟨false, .awaitChecksum, true⟩) [0b00100110] = some (.rxbChkAccept 0x26, []) ∧
    decoded (.byte ⟨false, .awaitChecksum, false⟩) [0b00100110] = some (.rxbChkDrop 0x26, []) ∧
    undecoded (.byte (at' .awaitChecksum)) [] = some .truncated := by decide

/-- FRAME, V-D1 and V-D17, with a byte of the next frame behind it; and what is no frame. -/
theorem test_decode_frame :
    decoded .frame (good ++ [0x55]) = some (.frame 1 2 1 [0x34, 0x12] 0x26, [0x55]) ∧
    decoded .frame [0x55, 0xAA, 0x01, 0x55, 0x2A, 0x02, 0x55, 0xAA, 0x83] =
      some (.frame 0x01 0x55 0x2A [0x55, 0xAA] 0x83, []) ∧
    undecoded .frame [0x54, 0xAA, 1, 2, 1, 0, 2] = some (.badHeader0 0x54) ∧
    undecoded .frame [0x55, 0x55, 1, 2, 1, 0, 2] = some (.badHeader1 0x55) ∧
    undecoded .frame [0x55, 0xAA, 1, 2, 1, 65, 2] = some (.lengthOverLimit 65) ∧
    undecoded .frame [0x55, 0xAA, 1, 2, 1, 1, 2] = some .truncated := by decide

/-- CMD rows at the ends of their ranges (30 R74, R76, R81). -/
theorem test_decode_cmd :
    decoded .command [0b10000000] = some (.cmdErrflag 0, []) ∧ decoded .command [0b11011111] = some (.cmdErrflag 0x5F, []) ∧
    decoded .command [0b01011111] = some (.cmdCustom, []) ∧
    decoded .command [0b00000000] = some (.cmdGet 0, []) ∧ decoded .command [0b00100101] = some (.cmdGet 0x25, []) ∧
    decoded .command [0b01000000] = some (.cmdSet 0x40, []) ∧ decoded .command [0b01100101] = some (.cmdSet 0x65, []) ∧
    decoded .command [0b00100110] = some (.cmdUnassigned 0x26, []) ∧
    decoded .command [0b00111111] = some (.cmdUnassigned 0x3F, []) ∧
    decoded .command [0b01100110] = some (.cmdUnassigned 0x66, []) ∧
    decoded .command [0b01111111] = some (.cmdUnassigned 0x7F, []) := by decide

/-- Words of the opcode table. -/
theorem test_table_words :
    decodeTableWord 8 0x55 = some .rxbH0Hit ∧ decodeTableWord 8 0xAA = some .rxbH1Hit ∧
    decodeTableWord 8 0x00 = some .rxbLenZero ∧ decodeTableWord 8 0x80 = some (.cmdErrflag 0) ∧
    decodeTableWord 8 0x5F = some .cmdCustom := by decide

/-! ### The decoder: vectors V-D -/

/-- V-D1, after each byte of interest. -/
theorem test_rxb_frame_byte_by_byte :
    shown (fed (good.take 1)) = (.awaitHeader1, false) ∧ shown (fed (good.take 2)) = (.awaitDestAddr, false) ∧
    shown (fed (good.take 3)) = (.awaitSrcAddr, false) ∧ shown (fed (good.take 4)) = (.awaitCommand, false) ∧
    shown (fed (good.take 5)) = (.awaitLength, false) ∧ shown (fed (good.take 6)) = (.awaitPayload 1, false) ∧
    shown (fed (good.take 7)) = (.awaitPayload 0, false) ∧ shown (fed (good.take 8)) = (.awaitChecksum, false) ∧
    shown (fed good) = (.awaitHeader0, true) ∧ (fed good).payload = some [0x34, 0x12] := by decide

/-- V-D2: the length byte 0 goes straight to the checksum. -/
theorem test_rxbLenZero : shown (fed [0x55, 0xAA, 1, 2, 0x42, 0]) = (.awaitChecksum, false) := by decide

/-- V-D8: 64 opens the payload, 65 and 255 abandon the frame. -/
theorem test_rxbLenOk : shown (fed [0x55, 0xAA, 1, 2, 1, 0x40]) = (.awaitPayload 63, false) := by decide
theorem test_rxbLenBad :
    shown (fed [0x55, 0xAA, 1, 2, 1, 0x41]) = (.awaitHeader0, false) ∧
    shown (fed [0x55, 0xAA, 1, 2, 1, 0xFF]) = (.awaitHeader0, false) := by decide

/-- V-D7 and V-D6: two 0x55 lose the frame, three keep it. -/
theorem test_rxbH1Miss :
    shown (fed [0x55, 0x55, 0xAA, 1, 2, 0x42, 0, 0x41]) = (.awaitHeader0, false) ∧
    shown (fed [0x55, 0x55, 0x55, 0xAA, 1, 2, 0x42, 0, 0x41]) = (.awaitHeader0, true) := by decide

/-- V-D11: a frame for another address, and one to 0xFF, are dropped. -/
theorem test_rxbChkDrop :
    shown (fed [0x55, 0xAA, 3, 2, 1, 1, 0xAB, 0xAA]) = (.awaitHeader0, false) ∧
    (fed [0x55, 0xAA, 3, 2, 1, 1, 0xAB, 0xAA]).chk = 0xAA ∧
    shown (fed [0x55, 0xAA, 0xFF, 2, 1, 0, 0xFC]) = (.awaitHeader0, false) := by decide

/-- V-D14: a truncated frame swallows the head of the next. -/
theorem test_rxbPay :
    (fed ([0x55, 0xAA, 1, 2, 1, 4, 1, 2] ++ good)).payload = some [0x01, 0x02, 0x55, 0xAA] ∧
    (fed ([0x55, 0xAA, 1, 2, 1, 4, 1, 2] ++ good)).chk = 0x01 := by decide

/-- V-D12: the second frame is discarded while the first is held. -/
theorem test_rxbDiscard :
    (fed [0x55, 0xAA, 1, 2, 1, 1, 0x11, 0x12, 0x55, 0xAA, 1, 2, 1, 1, 0x22, 0x21]).payload = some [0x11] := by decide

/-- A transition where it is not selected. -/
theorem test_rxb_not_selected :
    stopped (exec (.rxbH1Hit) start) = some (.inr .notSelected) ∧
    stopped (exec (.rxbPayMore 0) (fed (good.take 7))) = some (.inr .notSelected) := by decide

/-- FRAME as an arrival; the arena view of the captured frame (10 R27). -/
theorem test_frame :
    reached (exec (.frame 1 2 1 [0x34, 0x12] 0x26) start) = some (fed good) ∧
    (List.range 7).map (fed good).arena = [some 1, some 2, some 1, some 2, some 0x34, some 0x12, some 0x26] ∧
    (fed good).arena 69 = none := by decide

/-- V-D15. -/
theorem test_decReset :
    (reached (exec .decReset (fed (good.take 6)))).map shown = some (.awaitHeader0, false) ∧
    (reached (exec .decReset (fed good))).map shown = some (.awaitHeader0, false) := by decide

theorem test_reset :
    (reached (exec (.reset 7) (fed good))).map (fun s => (shown s, s.masterAddr, s.pay)) =
      some ((.awaitHeader0, false), 7, []) := by decide

/-- 10 R25, R38: a cell nothing has written holds a free value, at power-up and again after RESET; a written cell its
byte; cell 64 does not exist. -/
theorem test_unwritten_cell :
    State.reset.cell 63 = some (Config.unwrittenByte 0 63) ∧ (fed good).cell 1 = some 0x12 ∧
    (fed good).cell 2 = some (Config.unwrittenByte 0 2) ∧ (fed good).cell 64 = none ∧
    (reached (exec (.reset 7) (fed good))).map (fun s => s.cell 1) = some (some (Config.unwrittenByte 1 1)) :=
  ⟨rfl, rfl, rfl, rfl, rfl⟩

theorem test_setTimeout : (reached (exec (.setTimeout 200) start)).map State.cmdTimeoutMs = some 200 := by decide

/-! ### CHECK: vectors V-C -/

/-- CHECK of a frame fed from the start. -/
def checked (bs : List Byte) (target e : Byte) (cap : Nat) : Option Result :=
  resultOf (exec (.check target e cap) (fed bs))

theorem test_check_results :
    checked good 2 1 64 = some (.ok (.bytes [0x34, 0x12])) ∧
    checked [0x55, 0xAA, 1, 2, 1, 2, 0x35, 0x12, 0x26] 2 1 64 = some (.err .badChecksum) ∧
    checked [0x55, 0xAA, 1, 2, 1, 2, 0x34, 0x12, 0x27] 2 1 64 = some (.err .badChecksum) ∧
    checked [0x55, 0xAA, 1, 2, 0x81, 2, 0, 7, 0x87] 2 1 64 = some (.err (.remoteError 7)) ∧
    checked [0x55, 0xAA, 1, 3, 1, 2, 0x34, 0x12, 0x27] 2 1 64 = some (.err .unmatchedAddress) ∧
    checked [0x55, 0xAA, 1, 3, 1, 2, 0x34, 0x12, 0x27] 0xFF 1 64 = some (.ok (.bytes [0x34, 0x12])) ∧
    checked [0x55, 0xAA, 1, 2, 2, 2, 0x34, 0x12, 0x25] 2 1 64 = some (.err .unmatchedCommand) ∧
    checked good 2 1 1 = some (.err .bufferTooSmall) ∧ checked good 2 1 2 = some (.ok (.bytes [0x34, 0x12])) ∧
    checked good 2 0x81 64 = some (.err .unmatchedCommand) := by decide

/-- V-C6, V-C10, V-C11, V-C14: the order of the tests; V-C16: a second CHECK. -/
theorem test_check_order :
    checked [0x55, 0xAA, 1, 3, 0x82, 2, 0, 7, 0x85] 2 1 0 = some (.err (.remoteError 7)) ∧
    checked [0x55, 0xAA, 1, 3, 2, 2, 0x34, 0x12, 0x24] 2 1 0 = some (.err .unmatchedAddress) ∧
    checked [0x55, 0xAA, 1, 2, 2, 2, 0x34, 0x12, 0x25] 2 1 0 = some (.err .unmatchedCommand) ∧
    checked [0x55, 0xAA, 1, 3, 0x82, 2, 0, 7, 0] 2 1 0 = some (.err .badChecksum) ∧
    stopped (andThen (exec (.check 2 1 64) (fed good)) (exec (.check 2 1 64))) = some (.inr .checkNotReady) := by decide

/-! ### SEND and ENCODE: vectors V-S -/

/-- The frames handed to a transport that accepts. -/
def sentBy (target c : Byte) (p : List Byte) : Option (List (List Byte × Bool)) :=
  (reached (exec (.send target c p) { start with sendAnswers := [true] })).map State.sent

theorem test_send_frames :
    sentBy 2 1 [] = some [([0x55, 0xAA, 2, 1, 1, 0, 2], true)] ∧
    sentBy 2 0x45 [0x00, 0xE8, 0x03] = some [([0x55, 0xAA, 2, 1, 0x45, 3, 0x00, 0xE8, 0x03, 0xAE], true)] ∧
    sentBy 2 0x40 (List.replicate 63 0xFF) =
      some [([0x55, 0xAA, 2, 1, 0x40, 0x3F] ++ List.replicate 63 0xFF ++ [0x83], true)] ∧
    sentBy 2 0x40 (List.replicate 64 0xFF) = some [] ∧
    sentBy 0xFF 0 [] = some [([0x55, 0xAA, 0xFF, 1, 0, 0, 0xFE], true)] ∧
    sentBy 2 0x81 [1] = some [([0x55, 0xAA, 2, 1, 0x81, 1, 1, 0x82], true)] :=
  ⟨rfl, rfl, rfl, rfl, rfl, rfl⟩

/-- V-S4, V-S7, V-S8, V-S9. -/
theorem test_send_errors :
    resultOf (exec (.send 2 0x40 (List.replicate 64 0xFF)) start) = some (.err .payloadTooLarge) ∧
    resultOf (exec (.send 2 1 []) { start with ctxValid := false, timerOk := false }) = some (.err .invalidContext) ∧
    resultOf (exec (.send 2 1 (List.replicate 64 0xFF)) { start with timerOk := false }) =
      some (.err .timerNotConfigured) ∧
    resultOf (exec (.send 2 1 []) { start with sendAnswers := [false] }) = some (.err .transportFailure) := by decide

/-- V-S11, and the size ENCODE is defined on. -/
theorem test_encode :
    resultOf (exec (.encode 2 1 0x5F [0x98]) start) = some (.ok (.bytes [0x55, 0xAA, 2, 1, 0x5F, 1, 0x98, 0xC5])) ∧
    stopped (exec (.encode 2 1 1 (List.replicate 64 0)) start) = some (.inr .outsideDomain) := by decide

/-! ### The field codec: vectors V-F -/

/-- The result of a codec operation. -/
def value (i : Instr) : Option Result := resultOf (exec i start)

theorem test_u8 : value (.packU8 30) = some (.ok (.bytes [0x1E])) ∧ value (.unpackU8 [0, 1, 2] 2) = some (.ok (.nat 2)) :=
  by decide

theorem test_u16 :
    value (.packU16 4660) = some (.ok (.bytes [0x34, 0x12])) ∧ value (.packU16 256) = some (.ok (.bytes [0, 1])) ∧
    value (.unpackU16 [0x34, 0x12] 0) = some (.ok (.nat 4660)) ∧
    value (.unpackU16 [0, 0xFF, 0xFF] 1) = some (.ok (.nat 65535)) := by decide

theorem test_packS16 :
    value (.packS16 (-1)) = some (.ok (.bytes [0xFF, 0xFF])) ∧ value (.packS16 (-4500)) = some (.ok (.bytes [0x6C, 0xEE])) ∧
    value (.packS16 32767) = some (.ok (.bytes [0xFF, 0x7F])) ∧
    value (.packS16 (-32768)) = some (.ok (.bytes [0x00, 0x80])) := by decide

theorem test_unpackS16 :
    value (.unpackS16 [0xFF, 0xFF] 0) = some (.ok (.int (-1))) ∧
    value (.unpackS16 [0x00, 0x80] 0) = some (.ok (.int (-32768))) ∧
    value (.unpackS16 [0xFF, 0x7F] 0) = some (.ok (.int 32767)) := by decide

theorem test_f32 :
    value (.packF32 0xC0200000) = some (.ok (.bytes [0x00, 0x00, 0x20, 0xC0])) ∧
    value (.packF32 0x7FC00001) = some (.ok (.bytes [0x01, 0x00, 0xC0, 0x7F])) ∧
    value (.unpackF32 [0x01, 0x00, 0xC0, 0x7F] 0) = some (.ok (.word32 0x7FC00001)) := by decide

/-! ### The layouts: vectors V-L -/

theorem test_raw : value (.raw [7, 0, 7]) = some (.ok (.bytes [7, 0, 7])) := by decide

/-- The sixteen bytes of V-L1. -/
def pidBytes : List Byte := [0, 0, 0x80, 0x3F, 0, 0, 0x20, 0x3E, 0, 0, 0x20, 0xC0, 0, 0, 0xC8, 0x41]

theorem test_pid :
    value (.packPid 0x3F800000 0x3E200000 0xC0200000 0x41C80000) = some (.ok (.bytes pidBytes)) ∧
    value (.unpackPid pidBytes 0) = some (.ok (.pid 0x3F800000 0x3E200000 0xC0200000 0x41C80000)) ∧
    value (.unpackPid pidBytes 1) = some (.err .dataInvalid) := by decide

theorem test_packAllSet :
    value (.packAllSet .unsigned [(100, 10), (200, 20), (300, 30)]) =
      some (.ok (.bytes [0x64, 0, 0x0A, 0xC8, 0, 0x14, 0x2C, 1, 0x1E])) ∧
    value (.packAllSet .signed [(-4500, 255), (0, 0), (9000, 1)]) =
      some (.ok (.bytes [0x6C, 0xEE, 0xFF, 0, 0, 0, 0x28, 0x23, 1])) := by decide

/-- The payload of V-L5. -/
def allGetBytes : List Byte := [0x64, 0, 0xC8, 0, 0x2C, 1, 0x62, 0, 0xCD, 0, 0xFF, 0xFF]

theorem test_unpackAllGet :
    value (.unpackAllGet .unsigned allGetBytes 6) = some (.ok (.allGet 3 [100, 200, 300] [98, 205, 65535])) ∧
    value (.unpackAllGet .signed allGetBytes 3) = some (.ok (.allGet 3 [100, 200, 300] [98, 205, -1])) ∧
    value (.unpackAllGet .unsigned allGetBytes 2) = some (.err .dataTooLarge) ∧
    value (.unpackAllGet .unsigned (List.replicate 10 0) 0) = some (.err .dataInvalid) ∧
    value (.unpackAllGet .unsigned [] 0) = some (.ok (.allGet 0 [] [])) := by decide

/-- The payload of V-L8. -/
def caliBytes : List Byte := [2, 3, 0xE8, 3, 0xD0, 7, 0x0A, 0, 0x14, 0, 1, 0, 2, 0, 3, 0]

theorem test_unpackCali :
    value (.unpackCali caliBytes 6 3) = some (.ok (.cali 2 3 [1000, 2000] [10, 20] [1, 2, 3])) ∧
    value (.unpackCali caliBytes 6 2) = some (.err .dataTooLarge) ∧
    value (.unpackCali (caliBytes.take 15) 6 3) = some (.err .dataInvalid) ∧
    value (.unpackCali [2] 6 3) = some (.err .dataInvalid) ∧ value (.unpackCali [0, 0] 0 0) = some (.ok (.cali 0 0 [] [] [])) ∧
    value (.unpackCali [6, 0] 5 3) = some (.err .dataTooLarge) := by decide

theorem test_packCustom :
    value (.packCustom 0x8B 3 [10, 20, 30] [100, 200, 300] []) =
      some (.ok (.bytes [0x8B, 0x0A, 0, 0x14, 0, 0x1E, 0, 0x64, 0, 0xC8, 0, 0x2C, 1])) ∧
    value (.packCustom 0xFF 2 [5, 6] [1000, 2000] [-100, 100]) =
      some (.ok (.bytes [0xFF, 5, 0, 6, 0, 0xE8, 3, 0xD0, 7, 0x9C, 0xFF, 0x64, 0])) ∧
    value (.packCustom 0xF8 9 [] [] []) = some (.ok (.bytes [0xF8])) ∧
    stopped (exec (.packCustom 0x03 2 [1, 2] [1] []) start) = some (.inr .motorCountMismatch) := by decide

theorem test_unpackCustom :
    value (.unpackCustom 0xFF [0xE9, 3, 0xCF, 7, 0x9D, 0xFF, 0x65, 0, 0x2C, 1, 0x2D, 1, 0x32, 0, 0x33, 0, 0, 3] 6) =
      some (.ok (.custom 2 (some [1001, 1999]) (some [-99, 101]) (some [300, 301]) (some [50, 51]) (some [0, 3]))) ∧
    value (.unpackCustom 0x8B [0x65, 0, 0xC7, 0, 0x2C, 1, 0, 1, 2] 6) =
      some (.ok (.custom 3 (some [101, 199, 300]) none none none (some [0, 1, 2]))) := by decide

theorem test_unpackCustom_rejects :
    value (.unpackCustom 0x8B [0x65, 0, 0xC7, 0, 0x2C, 1, 0, 1, 2] 2) = some (.err .dataTooLarge) ∧
    value (.unpackCustom 0x8B [0x65, 0, 0xC7, 0, 0x2C, 1, 0, 1, 2, 0] 6) = some (.err .dataInvalid) ∧
    value (.unpackCustom 0x03 [] 6) = some (.ok (.custom 0 none none none none none)) ∧
    value (.unpackCustom 0x03 [0] 6) = some (.err .dataInvalid) := by decide

/-- The CMD rows (30 R74, R76, R81). -/
theorem test_cmd :
    value (.cmdErrflag 0x45) = some (.ok (.command (.errFlag 0x45) .errorCode)) ∧
    value .cmdCustom = some (.ok (.command .custom .customFormats)) ∧
    value (.cmdGet 0x25) = some (.ok (.command (.get 0x25) .anyFormat)) ∧
    value (.cmdSet 0x65) = some (.ok (.command (.set 0x65) .anyFormat)) ∧
    value (.cmdUnassigned 0x26) = some (.ok (.command (.unassigned 0x26) .rawOnly)) := by decide

/-! ### The transaction: vectors V-T -/

/-- V-T1 as one AWAIT of three polls. -/
theorem test_await_two_polls :
    resultOf (exec (.await 2 1 50 64) { start with script :=
      [.poll [] (.clock 1) false, .poll (good.take 5) (.clock 1) false, .poll (good.drop 5) (.clock 1) false] }) =
      some (.ok (.bytes [0x34, 0x12])) := by decide

/-- V-T3: the timeout in mid-frame resets the decoder; V-T4 and its alternative: frame and deadline in one iteration. -/
theorem test_await_timeout :
    (reached (exec (.await 2 1 50 64) { start with script := [.poll (good.take 7) (.clock 49) true, .poll [] (.clock 1) true] })).map
      (fun s => (shown s, s.result)) = some ((.awaitHeader0, false), some (.err .timeout)) ∧
    resultOf (exec (.await 2 1 50 64) { start with script := [.poll good (.clock 50) false] }) = some (.err .timeout) ∧
    resultOf (exec (.await 2 1 50 64) { start with script := [.poll good (.clock 50) true] }) =
      some (.ok (.bytes [0x34, 0x12])) := by decide

/-- 45 R227, 93 U2: the deadline as a draw, with no clock value: V-T4 and its alternative, and a timeout of 0 whose first
iteration is not found expired, as a strict comparison would have it. -/
theorem test_await_drawn_deadline :
    resultOf (exec (.await 2 1 50 64) { start with script := [.poll good (.drawn true) false] }) = some (.err .timeout) ∧
    resultOf (exec (.await 2 1 50 64) { start with script := [.poll good (.drawn true) true] }) =
      some (.ok (.bytes [0x34, 0x12])) ∧
    resultOf (exec (.await 2 1 0 64) { start with script := [.poll [] (.drawn false) false, .poll good (.drawn false) false] }) =
      some (.ok (.bytes [0x34, 0x12])) := by decide

/-- V-T6: ready on entry; V-T7: a stale frame ends the call. -/
theorem test_await_corners :
    resultOf (exec (.await 2 1 0 64) (fed good)) = some (.ok (.bytes [0x34, 0x12])) ∧
    resultOf (exec (.await 2 1 50 64) { start with script :=
      [.poll ([0x55, 0xAA, 1, 3, 1, 1, 0, 2] ++ good) (.clock 0) false] }) = some (.err .unmatchedAddress) := by decide

/-- The custom exchange of P3 as one OP. -/
def opCustom : Instr := .op 2 0x5F (.custom 0x8B 3 [10, 20, 30] [100, 200, 300] []) 64 (.custom 0x8B 6)

theorem test_op :
    (reached (exec opCustom { start with
      sendAnswers := [true]
      script := [.poll [0x55, 0xAA, 1, 2, 0x5F, 9, 0x65, 0] (.clock 1) false,
        .poll [0xC7, 0, 0x2C, 1, 0, 1, 2, 0xD9] (.clock 1) false] })).map (fun s => (s.result, s.sent)) =
      some (some (.ok (.custom 3 (some [101, 199, 300]) none none none (some [0, 1, 2]))),
        [([0x55, 0xAA, 2, 1, 0x5F, 0x0D, 0x8B, 0x0A, 0, 0x14, 0, 0x1E, 0, 0x64, 0, 0xC8, 0, 0x2C, 1, 0x5B], true)]) := by
  decide

/-- P2 as one OP: a remote error passes through; and a transport that refuses ends it before any AWAIT (V-T8). -/
theorem test_op_errors :
    resultOf (exec (.op 2 0x45 (.allSet .unsigned [(100, 10)]) 64 .raw) { start with
      sendAnswers := [true]
      script := [.poll [0x55, 0xAA, 1, 2, 0xC5, 2, 0, 3, 0xC7] (.clock 1) false] }) = some (.err (.remoteError 3)) ∧
    resultOf (exec (.op 2 1 (.raw []) 64 .raw) { start with sendAnswers := [false] }) =
      some (.err .transportFailure) := by decide

/-! ### The step -/

theorem test_step_rxb : step { start with script := [.rxb 0x55] } = .next { start with phase := .awaitHeader1 } := rfl

theorem test_step_idle : step start = .next start := rfl

theorem test_step_stops :
    stopped (step { start with script := [.call (.packS16 40000)] }) = some (.inr .illFormed) ∧
    stopped (step { start with script := [.abort] }) = some (.inr .noWaitRunning) ∧
    stopped (step { start with wait := some ⟨2, 1, 0, 50, 64, none⟩, script := [.call .decReset] }) =
      some (.inr .hostWaiting) := by decide

theorem test_withFetchWord :
    reached (step (start.withFetchWord 8 0x55)) = some { start with phase := .awaitHeader1 } ∧
    resultOf (step (start.withFetchWord 8 0x5F)) = some (.ok (.command .custom .customFormats)) := by decide

/-- The two faults, in states no run reaches: `len` below `rem`, and a ready frame whose `len` is above 64. -/
theorem test_faults :
    stopped (exec (.rxbPayMore 1) { start with phase := .awaitPayload 5, len := 2 }) = some (.inl .payOffset) ∧
    stopped (exec (.check 2 1 64) { start with ready := true, len := 65 }) = some (.inl .paySpan) ∧
    ({ start with ready := true, len := 64 } : State).payload.isSome = true := by decide

/-! ### Witnesses: for every statement with hypotheses, a state and operands that meet all of them (of each clause) -/

theorem witness_DecodingAnEncodingGivesTheInstructionBack :
    (Instr.rxbLenOk 64).WellFormed ∧ (Instr.rxbLenOk 64).readAt (.byte (at' .awaitLength)) = true ∧
    encode (.rxbLenOk 64) = some [64] ∧ (Instr.frame 1 2 1 [0x34, 0x12] 0x26).WellFormed ∧
    (Instr.frame 1 2 1 [0x34, 0x12] 0x26).readAt .frame = true ∧
    encode (.frame 1 2 1 [0x34, 0x12] 0x26) = some good ∧ (Instr.cmdSet 0x65).WellFormed ∧
    (Instr.cmdSet 0x65).readAt .command = true ∧ encode (.cmdSet 0x65) = some [0x65] := by decide

theorem witness_DecodedBytesAreTheInstructionsEncoding :
    decode .frame good = .ok (.frame 1 2 1 [0x34, 0x12] 0x26, []) ∧ decode .command [0x26, 1] = .ok (.cmdUnassigned 0x26, [1]) ∧
    decode (.byte (at' .awaitLength)) [65] = .ok (.rxbLenBad 65, []) := ⟨rfl, rfl, rfl⟩

/-- A lone byte for a transition, one for a command class, and the frame of V-D2 as a word. -/
theorem witness_TableWordRunsAsTheNextStep :
    decodeTableWord 8 0xAA = some .rxbH1Hit ∧ decodeTableWord 8 0x85 = some (.cmdErrflag 5) ∧
    decodeTableWord 56 0x4100420201AA55 = some (.frame 1 2 0x42 [] 0x41) := by decide

theorem witness_StepRunsTheReceivedByte :
    ({ start with script := [.rxb 0x55, .rxb 0xAA] } : State).script = .rxb 0x55 :: [.rxb 0xAA] := rfl

theorem witness_StepRunsTheCalledOperation :
    ({ start with script := [.call .decReset] } : State).wait = none ∧ Instr.decReset.WellFormed ∧
    ¬ (Instr.packS16 40000).WellFormed := by decide

/-- A host inside AWAIT, on the deadline's brink. -/
def waiting (l : List Line) : State :=
  { start with wait := some ⟨2, 1, 10, 50, 64, none⟩, nowMs := 40, script := l }

theorem witness_WaitingHostMayOnlyResetOrSetTheTimeout :
    (waiting [.call (.reset 7)]).wait.isSome = true ∧ (Instr.reset 7).WellFormed ∧ (Instr.setTimeout 9).WellFormed ∧
    (Instr.frame 1 2 1 [] 2).WellFormed ∧ (Instr.check 2 1 64).WellFormed ∧ (Instr.send 2 1 []).WellFormed ∧
    (Instr.await 2 1 50 64).WellFormed ∧ (Instr.op 2 1 (.raw []) 64 .raw).WellFormed ∧ Instr.decReset.WellFormed := by
  decide

/-- The clock reaches the deadline exactly, 40 + 20 - 10 = 50, and misses it by one; each clause, by draw and by clock;
with a line behind that answers the wait, and with one that does not. -/
theorem witness_IdleOrWaitingBlockGoesOnAtItsNextLine :
    start.script = [] ∧ (waiting [.poll [] (.clock 20) false]).wait = some ⟨2, 1, 10, 50, 64, none⟩ ∧
    50 ≤ (waiting []).nowMs + 20 - 10 ∧ ¬ 50 ≤ (waiting []).nowMs + 19 - 10 ∧
    (waiting [.abort]).script = .abort :: [] ∧
    (reached (feed [0x55] (waiting []))).map State.ready = some false ∧
    ([.poll good (.drawn false) false] : List Line).head?.any answersWait = true ∧
    ([.rxb 0x55] : List Line).head?.any answersWait = false ∧
    (reached (feed good (waiting []))).map (fun t => (t.ready, t.payload)) = some (true, some [0x34, 0x12]) := by decide

/-- Each of its cases as one step: still waiting, on to the next line, Timeout, CHECK's result. -/
theorem test_step_poll :
    (reached (step (waiting [.poll [0x55] (.clock 19) false, .rxb 0xAA]))).map (fun t => (t.phase, t.nowMs, t.wait.isSome)) =
      some (.awaitHeader1, 59, true) ∧
    resultOf (step (waiting [.poll [0x55] (.drawn false) false, .poll (good.drop 1) (.clock 0) false])) =
      some (.ok (.bytes [0x34, 0x12])) ∧
    resultOf (step (waiting [.poll good (.clock 20) false])) = some (.err .timeout) ∧
    resultOf (step (waiting [.poll good (.drawn true) true])) = some (.ok (.bytes [0x34, 0x12])) := by decide

theorem witness_ByteIsDiscardedWhileAFrameIsReady : (fed good).ready = true := by decide

theorem witness_HeaderBytesMustAppearInOrder :
    start.ready = false ∧ start.phase = .awaitHeader0 ∧ (0x54 : Byte) ≠ 0x55 ∧ (fed [0x55]).ready = false ∧
    (fed [0x55]).phase = .awaitHeader1 ∧ (0x55 : Byte) ≠ 0xAA := by decide

theorem witness_FixedFieldsAreCapturedInOrder :
    shown (fed (good.take 2)) = (.awaitDestAddr, false) ∧ shown (fed (good.take 3)) = (.awaitSrcAddr, false) ∧
    shown (fed (good.take 4)) = (.awaitCommand, false) := by decide

theorem witness_LengthByteOpensOrAbandonsTheFrame :
    shown (fed (good.take 5)) = (.awaitLength, false) ∧ 1 ≤ (1 : Byte).toNat ∧ (64 : Byte).toNat ≤ 64 ∧
    64 < (65 : Byte).toNat := by decide

/-- The first of 64 bytes, and the last of one. -/
theorem witness_PayloadBytesAreStoredAtTheirOffset :
    shown (fed [0x55, 0xAA, 1, 2, 1, 64]) = (.awaitPayload 63, false) ∧
    (63 : Fin 64).val + 1 ≤ (fed [0x55, 0xAA, 1, 2, 1, 64]).len.toNat ∧ (fed [0x55, 0xAA, 1, 2, 1, 64]).len.toNat ≤ 64 ∧
    (63 : Fin 64) ≠ 0 ∧ shown (fed [0x55, 0xAA, 1, 2, 1, 1]) = (.awaitPayload 0, false) ∧
    (0 : Fin 64).val + 1 ≤ (fed [0x55, 0xAA, 1, 2, 1, 1]).len.toNat := by decide

theorem witness_ChecksumByteAcceptsOrDropsTheFrame :
    shown (fed (good.take 8)) = (.awaitChecksum, false) ∧ (fed (good.take 8)).dest = (fed (good.take 8)).masterAddr ∧
    shown (fed [0x55, 0xAA, 3, 2, 1, 0]) = (.awaitChecksum, false) ∧
    (fed [0x55, 0xAA, 3, 2, 1, 0]).dest ≠ (fed [0x55, 0xAA, 3, 2, 1, 0]).masterAddr := by decide

theorem witness_EveryByteIsTakenByTheDecoder :
    start.Inv ∧ (fed (good.take 7)).Inv ∧ (fed (good.take 8)).Inv ∧ (fed good).Inv := by decide

theorem witness_TransitionsRunOnlyWhereSelected :
    (Instr.rxbPayMore 1).selectedBy (at' (.awaitPayload 1)) = true ∧
    (Instr.rxbPayMore 1).selectedBy (fed (good.take 7)).selector = false := by decide

theorem witness_ReadyFrameOutlastsEveryLaterByte : (fed good).ready = true := by decide

theorem witness_BytesBeforeAHeaderAreSkipped :
    start.ready = false ∧ start.phase = .awaitHeader0 ∧ ∀ b ∈ ([0x00, 0xFF, 0xAA, 0x13] : List Byte), b ≠ 0x55 := by
  decide

theorem witness_DoubledHeaderByteLosesTheFrame : start.ready = false ∧ start.phase = .awaitHeader0 := by decide

theorem witness_FrameIsCapturedWhole :
    start.ready = false ∧ start.phase = .awaitHeader0 ∧ (List.replicate 64 (0 : Byte)).length ≤ 64 := ⟨rfl, rfl, by simp⟩

theorem witness_EncodedFrameRoundTripsThroughTheDecoder :
    (List.replicate 63 (0 : Byte)).length ≤ 63 ∧ start.ready = false ∧ start.phase = .awaitHeader0 ∧
    start.masterAddr = 1 := ⟨by simp, rfl, rfl, rfl⟩

theorem witness_SingleByteCorruptionIsReported :
    ([0x34, 0x12] : List Byte).length ≤ 63 ∧ start.ready = false ∧ start.phase = .awaitHeader0 ∧
    1 < ([0x34, 0x12] : List Byte).length ∧ (0x13 : Byte) ≠ ([0x34, 0x12] : List Byte)[1] ∧ (3 : Byte) ≠ 2 ∧
    (0x81 : Byte) ≠ 1 ∧ (0x27 : Byte) ≠ lrc 1 2 1 2 [0x34, 0x12] := by decide

/-- One held frame for each clause: V-C3, V-C4, V-C7, V-C9, V-C12, V-C13. -/
theorem witness_CheckAppliesItsTestsInOrder :
    (fed good).ready = true ∧ (fed good).payload = some [0x34, 0x12] ∧
    (fed [0x55, 0xAA, 1, 2, 1, 2, 0x34, 0x12, 0x27]).spanLrc [0x34, 0x12] ≠ 0x27 ∧
    (fed [0x55, 0xAA, 1, 2, 0x81, 2, 0, 7, 0x87]).spanLrc [0, 7] = 0x87 ∧
    (fed [0x55, 0xAA, 1, 2, 0x81, 2, 0, 7, 0x87]).cmd.getLsbD 7 = true ∧ (fed good).spanLrc [0x34, 0x12] = 0x26 ∧
    (fed good).chk = 0x26 ∧ (fed good).cmd.getLsbD 7 = false ∧ (fed good).src = 2 ∧ (fed good).cmd &&& 0x7F = 1 ∧
    1 < ([0x34, 0x12] : List Byte).length ∧ ([0x34, 0x12] : List Byte).length ≤ 2 := by decide

/-- V-C5. -/
theorem witness_CheckOfAShortErrorFrameReportsAFreeCode :
    (fed [0x55, 0xAA, 1, 2, 0x81, 1, 5, 0x86]).ready = true ∧
    (fed [0x55, 0xAA, 1, 2, 0x81, 1, 5, 0x86]).payload = some [5] ∧
    (fed [0x55, 0xAA, 1, 2, 0x81, 1, 5, 0x86]).spanLrc [5] = (fed [0x55, 0xAA, 1, 2, 0x81, 1, 5, 0x86]).chk ∧
    (fed [0x55, 0xAA, 1, 2, 0x81, 1, 5, 0x86]).cmd.getLsbD 7 = true ∧ ([5] : List Byte).length < 2 := by decide

theorem witness_CheckConsumesTheFrameWhateverTheResult :
    start.ready = false ∧ (reached (exec (.check 2 1 64) (fed good))).isSome = true := by decide

theorem witness_ReadyFrameCanAlwaysBeChecked : (fed good).Inv ∧ (fed good).ready = true := by decide

theorem witness_CheckWildcardAndCommandCorners :
    (reached (exec (.check 0xFF 0x80 64) (fed good))).isSome = true ∧ 0x7F < (0x80 : Byte).toNat := by decide

theorem witness_SendReportsTheFirstFailureOrHandsOverTheFrame :
    ({ start with ctxValid := false } : State).ctxValid = false ∧ start.ctxValid = true ∧
    ({ start with timerOk := false } : State).timerOk = false ∧ start.timerOk = true ∧
    63 < (List.replicate 64 (0 : Byte)).length ∧ (List.replicate 63 (0 : Byte)).length ≤ 63 ∧
    ({ start with sendAnswers := [false] } : State).sendAnswers = false :: [] :=
  ⟨rfl, rfl, rfl, rfl, by simp, by simp, rfl⟩

/-- Before and in the middle of a frame. -/
theorem witness_SendLeavesTheDecoderAlone :
    (reached (exec (.send 2 1 []) { start with sendAnswers := [true] })).isSome = true ∧
    DecoderOnly start (fed (good.take 7)) ∧ start ≠ fed (good.take 7) := ⟨rfl, rfl, by decide⟩

theorem witness_EncodeBuildsTheFrame : (List.replicate 63 (0xFF : Byte)).length ≤ 63 := by simp

theorem witness_AwaitChecksAReadyFrameAtOnce :
    (fed good).ready = true ∧ (fed good).payload = some [0x34, 0x12] := by decide

/-- V-T3, V-T4 and V-T5: the deadline is reached exactly, in mid-frame at the second poll, or at once by a poll that
completes a frame, which the environment keeps or not; a timeout of 0; and a drawn deadline. -/
theorem witness_AwaitTimesOutAndResetsTheDecoder :
    ({ start with script := pollLines ([(good.take 7, .clock 49, true)] ++ [([], .clock 1, true)]) } : State).Inv ∧
    start.ready = false ∧ inTime ⟨2, 1, 0, 50, 64, none⟩ 0 [(good.take 7, .clock 49, true)] = true ∧
    (⟨2, 1, 0, 50, 64, none⟩ : Wait).expired (.clock 1) (readingAfter 0 [(good.take 7, .clock 49, true)]) = true ∧
    (fed (good.take 7)).ready = false ∧ (fed good).ready = true ∧ inTime ⟨2, 1, 0, 50, 64, none⟩ 0 [] = true ∧
    (⟨2, 1, 0, 50, 64, none⟩ : Wait).expired (.clock 50) 0 = true ∧
    (⟨2, 1, 0, 50, 64, none⟩ : Wait).expired (.clock 49) 0 = false ∧
    (⟨2, 1, 0, 0, 64, none⟩ : Wait).expired (.clock 0) 0 = true ∧
    (⟨2, 1, 0, 50, 64, none⟩ : Wait).expired (.drawn true) 0 = true := by decide

/-- The response of V-C1 in three polls, the first empty, behind a send that succeeds. -/
def polls : Polls := [([], .clock 1, false), (good.take 5, .drawn false, false)]

/-- See polls. -/
def delivering : State :=
  { start with sendAnswers := [true], script := pollLines (polls ++ [(good.drop 5, .clock 1, false)]) ++ [.rxb 0x55] }

theorem witness_AwaitDeliversAFragmentedResponse :
    delivering.ready = false ∧ delivering.phase = .awaitHeader0 ∧ (1 : Byte).toNat ≤ 0x7F ∧
    ([0x34, 0x12] : List Byte).length ≤ 64 ∧ ([0x34, 0x12] : List Byte).length ≤ 2 ∧
    pollBytes (polls ++ [(good.drop 5, .clock 1, false)]) =
      frameBytes delivering.masterAddr 2 1 [0x34, 0x12] (lrc delivering.masterAddr 2 1 2 [0x34, 0x12]) ∧
    good.drop 5 ≠ [] ∧ inTime ⟨2, 1, delivering.nowMs, 3, 2, none⟩ delivering.nowMs (polls ++ [(good.drop 5, .clock 1, false)]) = true ∧
    delivering.script = pollLines (polls ++ [(good.drop 5, .clock 1, false)]) ++ [.rxb 0x55] := by decide

theorem witness_AwaitWithoutPollsStaysInProgress : start.ready = false ∧ start.script = [] := by decide

/-- An AWAIT that ends with a result, an OP that does, and a later step of a wait held in the state. -/
theorem witness_WaitsEndingWithAResultLeaveTheDecoderIdle :
    ({ start with script := [.poll good (.clock 1) false] } : State).Inv ∧ delivering.Inv ∧
    (waiting [.poll good (.clock 1) false]).Inv ∧
    (reached (exec (.await 2 1 50 64) { start with script := [.poll good (.clock 1) false] })).map
      (fun t => (t.wait.isNone, t.result.isSome)) = some (true, true) ∧
    resultOf (exec (.send 2 1 (packRequest (.raw []))) delivering) = some (.ok .unit) ∧
    (reached (exec (.op 2 1 (.raw []) 2 .raw) delivering)).map (fun t => (t.wait.isNone, t.result.isSome)) =
      some (true, true) ∧
    (waiting [.poll good (.clock 1) false]).wait.isSome = true ∧
    (reached (step (waiting [.poll good (.clock 1) false]))).map (fun t => (t.wait.isNone, t.result.isSome)) =
      some (true, true) := by decide

/-- The read of V-T1 as one OP, whose SEND and AWAIT carry its target and code: refused by the transport, and accepted. -/
theorem witness_TypedOperationIsSendThenAwaitThenUnpack :
    (Instr.op 2 1 (.raw []) 2 .raw).WellFormed ∧
    resultOf (exec (.send 2 1 (packRequest (.raw []))) { delivering with sendAnswers := [false] }) =
      some (.err .transportFailure) ∧
    resultOf (exec (.send 2 1 (packRequest (.raw []))) delivering) = some (.ok .unit) ∧
    ((reached (exec (.send 2 1 (packRequest (.raw []))) delivering)).bind fun u =>
      resultOf (exec (.await 2 1 u.cmdTimeoutMs 2) u)) = some (.ok (.bytes [0x34, 0x12])) := by decide

/-- P1 as one OP. -/
theorem witness_TypedOperationCompletesEndToEnd :
    (Instr.op 2 1 (.raw []) 2 .raw).WellFormed ∧ delivering.ctxValid = true ∧ delivering.timerOk = true ∧
    (packRequest (.raw [])).length ≤ 63 ∧ delivering.sendAnswers = true :: [] ∧
    delivering.ready = false ∧ delivering.phase = .awaitHeader0 ∧ ([0x34, 0x12] : List Byte).length ≤ 2 ∧
    pollBytes (polls ++ [(good.drop 5, .clock 1, false)]) =
      frameBytes delivering.masterAddr 2 1 [0x34, 0x12] (lrc delivering.masterAddr 2 1 2 [0x34, 0x12]) ∧
    good.drop 5 ≠ [] ∧ inTime ⟨2, 1, delivering.nowMs, delivering.cmdTimeoutMs, 2, some .raw⟩ delivering.nowMs
      (polls ++ [(good.drop 5, .clock 1, false)]) = true ∧
    delivering.script = pollLines (polls ++ [(good.drop 5, .clock 1, false)]) ++ [.rxb 0x55] := by decide

theorem witness_IntegerFieldsPackLittleEndian :
    (-32768 : Int) ≤ -32768 ∧ (-32768 : Int) ≤ 32767 ∧ (32767 : Int) ≤ 32767 := by decide

/-- The last offset of each clause, and the ends of the range. -/
theorem witness_IntegerFieldsUnpackAndInvertPacking :
    3 < ([1, 2, 3, 4] : List Byte).length ∧ 2 + 1 < ([1, 2, 3, 4] : List Byte).length ∧ (-32768 : Int) ≤ -32768 ∧
    (-32768 : Int) ≤ 32767 ∧ (32767 : Int) ≤ 32767 := by decide

theorem witness_FloatFieldsMoveThePatternBitForBit : 1 + 3 < ([0, 1, 2, 3, 4] : List Byte).length := by decide

theorem witness_OperandsOutsideTheirDomainAreRefused :
    (32767 : Int) < 32768 ∧ (-32769 : Int) < -32768 ∧ ([1] : List Byte).length ≤ 1 ∧ ([1, 2] : List Byte).length < 1 + 2 ∧
    ([1, 2, 3] : List Byte).length < 0 + 4 ∧ 63 < (List.replicate 64 (0 : Byte)).length ∧
    64 < (List.replicate 65 (0 : Byte)).length := by
  refine ⟨by decide, by decide, by decide, by decide, by decide, ?_, ?_⟩ <;> simp

/-- The same for PACK_ALL_SET and PACK_CUSTOM: values just outside each reading, arrays too short for the motor count, an
array given for an inactive bit, and an angle out of range where the arrays fit. -/
theorem witness_OperandsOutsideTheirDomainAreRefused_layouts :
    (∃ m ∈ ([(0, 1), (-1, 0)] : List (Int × Byte)), m.1 < 0 ∨ 65535 < m.1) ∧
    (∃ m ∈ ([(65536, 0)] : List (Int × Byte)), m.1 < 0 ∨ 65535 < m.1) ∧
    (∃ m ∈ ([(-32769, 0)] : List (Int × Byte)), m.1 < -32768 ∨ 32767 < m.1) ∧
    (∃ m ∈ ([(32768, 0)] : List (Int × Byte)), m.1 < -32768 ∨ 32767 < m.1) ∧
    ([1] : List Word16).length ≠ (if (0x01 : Byte).getLsbD 0 then 2 else 0) ∧
    ([7] : List Int).length ≠ (if (0x03 : Byte).getLsbD 2 then 1 else 0) ∧
    (([] : List Word16).length = (if (0x04 : Byte).getLsbD 0 then 1 else 0) ∧
      ([32768] : List Int).length = (if (0x04 : Byte).getLsbD 2 then 1 else 0)) ∧
    ∃ v ∈ ([32768] : List Int), v < -32768 ∨ 32767 < v := by decide

/-- The same for OP and the CMD rows, at the edges of their ranges. -/
theorem witness_OperandsOutsideTheirDomainAreRefused_commands :
    ¬ (Instr.op 2 0x26 (.pid 0 0 0 0) 64 .raw).WellFormed ∧ 0x7F < (0x80 : Byte).toNat ∧ 0x25 < (0x26 : BitVec 7).toNat ∧
    (0x3F : BitVec 7).toNat < 0x40 ∧ 0x65 < (0x66 : BitVec 7).toNat ∧ (0x25 : BitVec 7).toNat ≤ 0x25 ∧
    (0x40 ≤ (0x65 : BitVec 7).toNat ∧ (0x65 : BitVec 7).toNat ≤ 0x65) := by decide

theorem witness_PidBlockRoundTrips : pidBytes.length < 1 + 16 := by decide

theorem witness_AllMotorsSetInterleavesValuesAndSpeeds :
    (∀ m ∈ ([(-32768, 255), (32767, 0)] : List (Int × Byte)), inRange16 .signed m.1 = true) ∧
    (∀ m ∈ ([(0, 255), (65535, 0)] : List (Int × Byte)), inRange16 .unsigned m.1 = true) ∧
    (∀ m ∈ List.replicate 22 ((0, 0) : Int × Byte), inRange16 .unsigned m.1 = true) ∧
    21 < (List.replicate 22 ((0, 0) : Int × Byte)).length ∧ start.ctxValid = true ∧ start.timerOk = true := by decide

theorem witness_AllMotorsGetReadsTwoBlocks :
    ([100, 200] : List Int).length = ([98, 65535] : List Int).length ∧ ([100, 200] : List Int).length ≤ 2 ∧
    ∀ v ∈ ([100, 200] ++ [98, 65535] : List Int), inRange16 .unsigned v = true := by decide

theorem witness_CalibrationResponseReadsItsThreeArrays :
    ([1000, 2000] : List Word16).length = (2 : Byte).toNat ∧ ([1, 2, 3] : List Word16).length = (3 : Byte).toNat ∧
    (2 : Byte).toNat ≤ 2 ∧ (3 : Byte).toNat ≤ 3 := by decide

theorem witness_CustomRequestCarriesTheActiveSetArrays :
    ([10, 20, 30] : List Word16).length = (if (0x8B : Byte).getLsbD 0 then 3 else 0) ∧
    ([100, 200, 300] : List Word16).length = (if (0x8B : Byte).getLsbD 1 then 3 else 0) ∧
    ([] : List Int).length = (if (0x8B : Byte).getLsbD 2 then 3 else 0) ∧
    ([-9000] : List Int).length = (if (0x04 : Byte).getLsbD 2 then 1 else 0) ∧
    ∀ v ∈ ([-9000] : List Int), inRange16 .signed v = true := by decide

theorem witness_CustomResponseReadsTheActiveGetArrays :
    (0x8B : Byte) &&& 0xF8 ≠ 0 ∧ ([101, 199, 300] : List Word16).length = 3 ∧ ([-1, 0, 1] : List Int).length = 3 ∧
    ([0, 1, 2] : List Byte).length = 3 ∧ 3 ≤ 3 ∧ ∀ v ∈ ([-1, 0, 1] : List Int), inRange16 .signed v = true := by decide

/-- V-L7, V-L6, V-L8, V-L12, V-L15, one for each clause. -/
theorem witness_LayoutsRejectBadLengthsAndCapacities :
    (List.replicate 10 (0 : Byte)).length % 4 ≠ 0 ∧ allGetBytes.length % 4 = 0 ∧ 2 < allGetBytes.length / 4 ∧
    ([2] : List Byte).length < 2 ∧ 1 < caliBytes.length ∧ 2 < caliBytes[1].toNat ∧
    caliBytes[0].toNat ≤ 2 ∧ caliBytes[1].toNat ≤ 3 ∧
    (caliBytes.take 15).length ≠ 2 + 4 * caliBytes[0].toNat + 2 * caliBytes[1].toNat ∧ customWidth 0x8B = 3 ∧
    (List.replicate 10 (0 : Byte)).length % 3 ≠ 0 ∧ (List.replicate 9 (0 : Byte)).length % 3 = 0 ∧
    2 < (List.replicate 9 (0 : Byte)).length / 3 ∧ customWidth 0x03 = 0 := by decide

/-- The ends of the code ranges. -/
theorem witness_CommandBytesAreClassified :
    (0x25 : BitVec 7).toNat ≤ 0x25 ∧ 0x40 ≤ (0x40 : BitVec 7).toNat ∧ (0x65 : BitVec 7).toNat ≤ 0x65 ∧
    (0x65 : BitVec 7) ≠ 0x5F ∧ (0x25 < (0x26 : BitVec 7).toNat ∧ (0x3F : BitVec 7).toNat < 0x40) ∧
    0x65 < (0x66 : BitVec 7).toNat := by decide

theorem witness_StepKeepsTheInvariant :
    ({ fed (good.take 8) with script := [.rxb 0x26] } : State).Inv ∧
    reached (step { fed (good.take 8) with script := [.rxb 0x26] }) = some (fed good) := by decide

/-- One step for each clause: RESET, SET_TIMEOUT, an accepted checksum byte, an arriving frame, SEND. -/
theorem witness_OnlyItsOwnersWriteARegister :
    (reached (step { start with script := [.call (.reset 7)] })).map State.masterAddr = some 7 ∧
    (reached (step { start with script := [.call (.setTimeout 9)] })).map State.cmdTimeoutMs = some 9 ∧
    (fed (good.take 8)).ready = false ∧
    (reached (exec (.rxbChkAccept 0x26) (fed (good.take 8)))).map State.ready = some true ∧
    (reached (exec (.frame 1 2 1 [0x34, 0x12] 0x26) start)).map State.ready = some true ∧
    leavesDecoder (.send 2 1 []) = true ∧
    (reached (exec (.send 2 1 []) { start with sendAnswers := [true] })).isSome = true := by decide

end Sys2Proof.Tests
end

section
/-! Proofs: what an operation leaves unchanged (60 R250), the invariant of the decoder and of the payload buffer
(10 R22, R23, R28), and the statements of 10_state.md. -/

namespace Sys2Proof.Machine

/-! ### The invariant, promise by promise -/

theorem State.storedBelow_iff {s : State} {n : Nat} :
    s.storedBelow n = true ↔ ∀ a < n, (s.pay.read a).isSome = true := by
  simp [State.storedBelow]

/-- Storing the next byte extends the stored cells by one (10 R23). -/
theorem State.storedBelow_write {s t : State} {n : Nat} {b : Byte} (hs : s.storedBelow n = true)
    (ht : t.pay = s.pay.write n b) : t.storedBelow (n + 1) = true := by
  rw [State.storedBelow_iff] at *
  intro a ha
  rw [ht]
  by_cases h : a = n
  · rw [h, Memory.read_write_same]
    rfl
  · rw [Memory.read_write_other _ _ h]
    exact hs a (by omega)

theorem State.phaseOk_iff_of_awaitPayload {s : State} {left : Fin maxRxLen} (hp : s.phase = .awaitPayload left) :
    s.phaseOk = true ↔ left.val + 1 ≤ s.len.toNat ∧ s.len.toNat ≤ payCells ∧
      s.storedBelow (s.len.toNat - (left.val + 1)) = true := by
  simp [State.phaseOk, hp, and_assoc]

theorem State.phaseOk_iff_of_awaitChecksum {s : State} (hp : s.phase = .awaitChecksum) :
    s.phaseOk = true ↔ s.len.toNat ≤ payCells ∧ s.storedBelow s.len.toNat = true := by
  simp [State.phaseOk, hp]

theorem State.readyOk_iff {s : State} :
    s.readyOk = true ↔ s.phase = .awaitHeader0 ∧ s.dest = s.masterAddr ∧ s.len.toNat ≤ payCells ∧
      s.storedBelow s.len.toNat = true := by
  simp [State.readyOk, and_assoc]

/-- With no frame ready the invariant is the buffer's canonical form and the phase's promise. -/
theorem State.inv_of_not_ready {s : State} (hw : s.pay.wf = true) (hp : s.phaseOk = true) (hr : s.ready = false) :
    s.Inv :=
  ⟨hw, hp, fun h => absurd h (by simp [hr])⟩

/-- The invariant speaks of the decoder's registers and MASTER_ADDR alone. -/
theorem DecoderSame.inv {s t : State} (h : DecoderSame s t) (hm : t.masterAddr = s.masterAddr) (hs : s.Inv) :
    t.Inv := by
  simpa only [State.Inv, State.phaseOk, State.readyOk, State.storedBelow, h.phase, h.dest, h.len, h.pay, h.ready, hm]
    using hs

/-! ### What a step leaves to its owner (60 R250) -/

/-- From `s` to `t` MASTER_ADDR and the timeout register stay as they are, and the invariant is kept. -/
structure Keeps (s t : State) : Prop where
  masterAddr : t.masterAddr = s.masterAddr
  cmdTimeoutMs : t.cmdTimeoutMs = s.cmdTimeoutMs
  inv : s.Inv → t.Inv

theorem Keeps.refl (s : State) : Keeps s s := ⟨rfl, rfl, id⟩

theorem Keeps.trans {s t u : State} (h : Keeps s t) (h' : Keeps t u) : Keeps s u :=
  ⟨h'.masterAddr.trans h.masterAddr, h'.cmdTimeoutMs.trans h.cmdTimeoutMs, h'.inv ∘ h.inv⟩

/-- An operation that has no access to the decoder and the configuration keeps both. -/
theorem DecoderSame.keeps {s t : State} (h : DecoderSame s t) (hm : t.masterAddr = s.masterAddr)
    (hc : t.cmdTimeoutMs = s.cmdTimeoutMs) : Keeps s t :=
  ⟨hm, hc, h.inv hm⟩

theorem keeps_setScript (s : State) (l : List Line) : Keeps s (s.setScript l) :=
  DecoderSame.keeps (by constructor <;> rfl) rfl rfl

theorem keeps_setNow (s : State) (n : Nat) : Keeps s (s.setNow n) :=
  DecoderSame.keeps (by constructor <;> rfl) rfl rfl

theorem keeps_setWait (s : State) (w : Option Wait) : Keeps s (s.setWait w) :=
  DecoderSame.keeps (by constructor <;> rfl) rfl rfl

theorem keeps_setResult (s : State) (r : Option Result) : Keeps s (s.setResult r) :=
  DecoderSame.keeps (by constructor <;> rfl) rfl rfl

theorem keeps_setDraws (s : State) (n : Nat) : Keeps s (s.setDraws n) :=
  DecoderSame.keeps (by constructor <;> rfl) rfl rfl

theorem keeps_handOver (s : State) (frame : List Byte) : Keeps s (s.handOver frame) :=
  DecoderSame.keeps (by constructor <;> rfl) rfl rfl

/-- Giving up a ready frame keeps every promise that is left (41 R131). -/
theorem keeps_setReady_false (s : State) : Keeps s (s.setReady false) :=
  ⟨rfl, rfl, fun ⟨hw, hp, _⟩ => State.inv_of_not_ready hw hp rfl⟩

/-- DEC_RESET keeps the buffer's canonical form, and its phase promises nothing (40 R114). -/
theorem keeps_decoderReset (s : State) : Keeps s s.decoderReset :=
  ⟨rfl, rfl, fun ⟨hw, _, _⟩ => State.inv_of_not_ready hw rfl rfl⟩

/-! ### The transitions of the decoder (40 R101 to R112) -/

/-- What a transition can do to the invariant's registers: nothing; move between phases that hold no payload byte yet;
store a payload byte; or accept the frame. -/
inductive Moves (s : State) : Instr → State → Prop
  | unchanged (i : Instr) : Moves s i s
  | betweenFields (i : Instr) {t : State} (pay : t.pay = s.pay) (phaseOk : t.phaseOk = true)
      (ready : t.ready = false) : Moves s i t
  | payloadByte (i : Instr) (b : Byte) (left : Fin maxRxLen) (ready : s.ready = false)
      (phase : s.phase = .awaitPayload left) (inside : s.len.toNat - (left.val + 1) < payCells) :
      Moves s i ((s.setPay (s.pay.write (s.len.toNat - (left.val + 1)) b)).setPhase
        (if left = 0 then .awaitChecksum else .awaitPayload (left - 1)))
  | accepted (b : Byte) (phase : s.phase = .awaitChecksum) (dest : s.dest = s.masterAddr) :
      Moves s (.rxbChkAccept b) (((s.setChk b).setReady true).setPhase .awaitHeader0)

theorem State.awaits_iff {s : State} {p : Phase} : s.awaits p = true ↔ s.ready = false ∧ s.phase = p := by
  simp [State.awaits]

/-- A length byte from 1 to 64 opens the payload with `rem = len` and no byte stored yet (40 R107). -/
theorem phaseOk_of_lenOk (s : State) {b : Byte} (h1 : 1 ≤ b.toNat) (h64 : b.toNat ≤ maxRxLen) :
    ((s.setLen b).setPhase (.awaitPayload (Fin.ofNat maxRxLen (b.toNat - 1)))).phaseOk = true := by
  have hleft : (Fin.ofNat maxRxLen (b.toNat - 1)).val + 1 = b.toNat := by
    rw [Fin.val_ofNat, Nat.mod_eq_of_lt (by omega)]
    omega
  rw [State.phaseOk_iff_of_awaitPayload rfl, hleft]
  exact ⟨Nat.le_refl _, h64, State.storedBelow_iff.2 fun a ha => absurd ha (by simp)⟩

theorem runTransition_moves {i : Instr} {s t : State} (h : runTransition i s = .next t) : Moves s i t := by
  cases i <;> simp only [runTransition, execRxbDiscard, execRxbH0Hit, execRxbH0Miss, execRxbH1Hit, execRxbH1Miss,
    execRxbDest, execRxbSrc, execRxbCmd, execRxbLenZero, execRxbLenOk, execRxbLenBad, execRxbPayLast,
    execRxbChkAccept, execRxbChkDrop, whenSelected_eq_next, Bool.and_eq_true, decide_eq_true_eq, State.awaits_iff,
    Host.Outcome.next.injEq, reduceCtorEq] at h
  case rxbDiscard | rxbH0Miss =>
    obtain ⟨-, rfl⟩ := h
    exact .unchanged _
  case rxbLenOk b =>
    obtain ⟨⟨⟨hr, -⟩, h1, h64⟩, rfl⟩ := h
    exact .betweenFields _ rfl (phaseOk_of_lenOk s h1 h64) hr
  case rxbPayMore b =>
    unfold execRxbPayMore at h
    split at h
    case h_1 left hp =>
      simp only [whenSelected_eq_next, andThen_eq_next, storePayload_eq_next, decide_eq_true_eq] at h
      obtain ⟨⟨hr, hl⟩, u, ⟨-, hin, rfl⟩, ht⟩ := h
      cases ht
      simpa only [if_neg hl] using Moves.payloadByte _ b left hr hp hin
    case h_2 => cases h
  case rxbPayLast b =>
    simp only [andThen_eq_next, storePayload_eq_next] at h
    obtain ⟨⟨hr, hp⟩, u, ⟨-, hin, rfl⟩, ht⟩ := h
    cases ht
    exact .payloadByte _ b 0 hr hp hin
  case rxbChkAccept b =>
    obtain ⟨⟨⟨-, hp⟩, hd⟩, rfl⟩ := h
    exact .accepted b hp hd
  case rxbH1Miss | rxbLenBad | rxbChkDrop =>
    obtain ⟨⟨⟨hr, -⟩, -⟩, rfl⟩ := h
    exact .betweenFields _ rfl rfl hr
  all_goals
    obtain ⟨⟨hr, -⟩, rfl⟩ := h
    exact .betweenFields _ rfl rfl hr

theorem Moves.inv {i : Instr} {s t : State} (h : Moves s i t) (hs : s.Inv) : t.Inv := by
  obtain ⟨hw, hpo, -⟩ := id hs
  cases h with
  | unchanged => exact hs
  | betweenFields _ hpay hphase hr => exact State.inv_of_not_ready (hpay ▸ hw) hphase hr
  | payloadByte _ b left hr hp hin =>
    obtain ⟨hle, h64, hst⟩ := (State.phaseOk_iff_of_awaitPayload hp).1 hpo
    refine State.inv_of_not_ready (Memory.write_wf b hw hin) ?_ hr
    have hstored : ∀ p, ((s.setPay (s.pay.write (s.len.toNat - (left.val + 1)) b)).setPhase p).storedBelow
        (s.len.toNat - left.val) = true := fun p => by
      rw [show s.len.toNat - left.val = s.len.toNat - (left.val + 1) + 1 by omega]
      exact State.storedBelow_write hst rfl
    by_cases hl : left = 0
    · subst hl
      rw [if_pos rfl, State.phaseOk_iff_of_awaitChecksum rfl]
      exact ⟨h64, hstored _⟩
    · rw [if_neg hl, State.phaseOk_iff_of_awaitPayload rfl, left_sub_one hl]
      exact ⟨by simp; omega, h64, hstored _⟩
  | accepted b hp hd =>
    obtain ⟨h64, hst⟩ := (State.phaseOk_iff_of_awaitChecksum hp).1 hpo
    exact ⟨hw, rfl, fun _ => State.readyOk_iff.2 ⟨rfl, hd, h64, hst⟩⟩

theorem runTransition_keeps {i : Instr} {s t : State} (h : runTransition i s = .next t) : Keeps s t := by
  have hd : t = _ := runTransition_decoderOnly h
  exact ⟨by rw [hd], by rw [hd], (runTransition_moves h).inv⟩

/-- No transition but an accepted checksum byte makes a frame ready (10 R26). -/
theorem runTransition_ready {i : Instr} {s t : State} (h : runTransition i s = .next t) (hs : s.ready = false)
    (ht : t.ready = true) : ∃ b, i = .rxbChkAccept b := by
  cases runTransition_moves h with
  | accepted b => exact ⟨b, rfl⟩
  | _ => simp_all

theorem feed_keeps {bs : List Byte} {s t : State} (h : feed bs s = .next t) : Keeps s t := by
  induction bs generalizing s with
  | nil =>
    cases h
    exact .refl _
  | cons b bs ih =>
    obtain ⟨u, hu, ht⟩ := andThen_eq_next.1 h
    exact (runTransition_keeps hu).trans (ih ht)

/-! ### The wait loop (45 R223 to R227) -/

theorem conclude_keeps {w : Wait} {s t : State} (h : conclude w s = .next t) : Keeps s t := by
  obtain ⟨p, -, rfl⟩ := conclude_eq_next.1 h
  exact (keeps_setReady_false s).trans <| (keeps_setDraws _ _).trans <| (keeps_setResult _ _).trans <|
    keeps_setWait _ _

theorem conclude_not_ready {w : Wait} {s t : State} (h : conclude w s = .next t) : t.ready = false := by
  obtain ⟨p, -, rfl⟩ := conclude_eq_next.1 h
  rfl

theorem expire_eq_next {s t : State} :
    expire s = .next t ↔ t = (s.decoderReset.setWait none).setResult (some (.err .timeout)) := by
  simp [expire, raise, eq_comm]

/-- What an iteration of the wait loop can do after its bytes: conclude, expire, or leave the wait in progress with no
frame ready. -/
theorem iterate_cases {w : Wait} {bs : List Byte} {d : Deadline} {keep : Bool} {s t : State}
    (h : iterate w bs d keep s = .next t) :
    ∃ u n, feed bs s = .next u ∧
      (conclude w (u.setNow n) = .next t ∨ expire (u.setNow n) = .next t ∨ (u.ready = false ∧ t = u.setNow n)) := by
  obtain ⟨u, hu, ht⟩ := andThen_eq_next.1 h
  refine ⟨u, d.reading u.nowMs, hu, ?_⟩
  simp only at ht
  split at ht
  · split at ht
    · exact .inl ht
    · exact .inr (.inl ht)
  · split at ht
    · exact .inl ht
    · cases ht
      exact .inr (.inr ⟨by simp_all, rfl⟩)

theorem iterate_keeps {w : Wait} {bs : List Byte} {d : Deadline} {keep : Bool} {s t : State}
    (h : iterate w bs d keep s = .next t) : Keeps s t := by
  obtain ⟨u, n, hu, ht⟩ := iterate_cases h
  refine (feed_keeps hu).trans ((keeps_setNow u n).trans ?_)
  obtain ht | ht | ⟨-, rfl⟩ := ht
  · exact conclude_keeps ht
  · rw [expire_eq_next.1 ht]
    exact (keeps_decoderReset _).trans ((keeps_setWait _ _).trans (keeps_setResult _ _))
  · exact .refl _

theorem iterate_not_ready {w : Wait} {bs : List Byte} {d : Deadline} {keep : Bool} {s t : State}
    (h : iterate w bs d keep s = .next t) : t.ready = false := by
  obtain ⟨u, n, -, ht | ht | ⟨hr, rfl⟩⟩ := iterate_cases h
  · exact conclude_not_ready ht
  · rw [expire_eq_next.1 ht]
    rfl
  · exact hr

/-- The induction over the lines of a wait: a property that every iteration keeps, and that speaks neither of the script
nor of the call in progress and its result, holds after the loop. -/
theorem awaitLines_induction {P : State → Prop} (script : ∀ s l, P s → P (s.setScript l))
    (abandoned : ∀ s, P s → P ((s.setWait none).setResult none))
    (iteration : ∀ w bs d keep s t, P s → iterate w bs d keep s = .next t → P t) {l : List Line} {s t : State}
    (hs : P s) (h : awaitLines l s = .next t) : P t := by
  induction l generalizing s with
  | nil =>
    cases h
    exact script _ _ hs
  | cons x l ih =>
    cases hw : s.wait with
    | none =>
      rw [awaitLines_of_wait_none _ hw] at h
      cases h
      exact script _ _ hs
    | some w =>
      cases x <;> simp only [awaitLines, hw] at h
      case poll bs d keep =>
        obtain ⟨u, hu, ht⟩ := andThen_eq_next.1 h
        exact ih (iteration _ _ _ _ _ _ hs hu) ht
      case abort =>
        cases h
        exact abandoned _ (script _ _ hs)
      all_goals
        cases h
        exact script _ _ hs

theorem awaitLines_keeps {l : List Line} {s t : State} (h : awaitLines l s = .next t) : Keeps s t :=
  awaitLines_induction (P := Keeps s) (fun _ _ hs => hs.trans (keeps_setScript _ _))
    (fun _ hs => hs.trans ((keeps_setWait _ _).trans (keeps_setResult _ _)))
    (fun _ _ _ _ _ _ hs hi => hs.trans (iterate_keeps hi)) (.refl s) h

theorem awaitLines_not_ready {l : List Line} {s t : State} (hs : s.ready = false) (h : awaitLines l s = .next t) :
    t.ready = false :=
  awaitLines_induction (P := fun u => u.ready = false) (fun _ _ hs => hs) (fun _ hs => hs)
    (fun _ _ _ _ _ _ _ hi => iterate_not_ready hi) hs h

theorem enterWait_keeps {w : Wait} {s t : State} (h : enterWait w s = .next t) : Keeps s t := by
  refine ((keeps_setWait s (some w)).trans (keeps_setResult _ none)).trans ?_
  unfold enterWait at h
  simp only at h
  split at h
  · exact conclude_keeps h
  · exact awaitLines_keeps h

/-- A call of AWAIT never leaves a frame ready: it checks one that is, and polls for one that is not (45 R222). -/
theorem enterWait_not_ready {w : Wait} {s t : State} (h : enterWait w s = .next t) : t.ready = false := by
  unfold enterWait at h
  simp only at h
  split at h
  case isTrue => exact conclude_not_ready h
  case isFalse hr => exact awaitLines_not_ready (by simpa using hr) h

/-! ### The operations that have no access to the decoder (60 R250) -/

/-- An operation that ends with a result or not at all, and changes nothing but the result. -/
def GivesResult (o : Out) (s : State) : Prop := ∀ t, o = .next t → ∃ r, t = s.setResult r

theorem givesResult_endWith (r : Result) (s : State) : GivesResult (endWith r s) s := by
  intro t h
  rw [endWith_eq] at h
  cases h
  exact ⟨_, rfl⟩

theorem givesResult_returnOk (v : Value) (s : State) : GivesResult (returnOk v s) s := givesResult_endWith (.ok v) s

theorem givesResult_whenDefined (b : Bool) {o : Out} {s : State} (h : GivesResult o s) :
    GivesResult (whenDefined b o) s :=
  fun t ht => h t (whenDefined_eq_next.1 ht).2

theorem givesResult_packCustom (mask : Byte) (n : Nat) (speed position : List Word16) (angle : List Int) (s : State) :
    GivesResult (execPackCustom mask n speed position angle s) s := by
  unfold execPackCustom
  split
  · exact givesResult_whenDefined _ (givesResult_returnOk _ _)
  · intro t h
    cases h

/-- A transmission leaves the state as it is, or hands one frame to the transport (42 R150). -/
theorem transmit_state (target c : Byte) (payload : List Byte) (s : State) :
    (transmit target c payload s).2 = s ∨ ∃ frame, (transmit target c payload s).2 = s.handOver frame := by
  obtain ⟨e, -, h⟩ | ⟨-, h⟩ := transmit_cases target c payload s
  · exact .inl (by rw [h])
  · exact .inr ⟨_, by rw [h]⟩

theorem execSend_eq_next {target c : Byte} {payload : List Byte} {s t : State}
    (h : execSend target c payload s = .next t) : ∃ r, t = (transmit target c payload s).2.setResult r := by
  unfold execSend at h
  split at h
  case h_1 hu =>
    rw [hu]
    exact givesResult_returnOk _ _ _ h
  case h_2 e _ hu =>
    rw [hu]
    exact givesResult_endWith (.err e) _ _ h

/-- What an operation with no access to the decoder can do: write the timeout register, or end with a result, after
handing a frame to the transport or without it. -/
theorem exec_cases_of_leavesDecoder {i : Instr} {s t : State} (hi : leavesDecoder i = true) (h : exec i s = .next t) :
    (∃ ms, i = .setTimeout ms ∧ t = s.setTimeout ms) ∨ (∃ r, t = s.setResult r) ∨
      ∃ frame r, t = (s.handOver frame).setResult r := by
  cases i with
  | setTimeout ms =>
    cases h
    exact .inl ⟨ms, rfl, rfl⟩
  | send target c payload =>
    obtain ⟨r, rfl⟩ := execSend_eq_next h
    obtain hs | ⟨frame, hs⟩ := transmit_state target c payload s
    · exact .inr (.inl ⟨r, by rw [hs]⟩)
    · exact .inr (.inr ⟨frame, r, by rw [hs]⟩)
  | packU8 | packU16 | packF32 | raw | packPid | cmdErrflag | cmdCustom =>
    exact .inr (.inl (givesResult_returnOk _ _ _ h))
  | encode | unpackU8 | unpackU16 | packS16 | unpackS16 | unpackF32 | packAllSet | cmdGet | cmdSet | cmdUnassigned =>
    exact .inr (.inl (givesResult_whenDefined _ (givesResult_returnOk _ _) _ h))
  | unpackPid | unpackAllGet | unpackCali | unpackCustom => exact .inr (.inl (givesResult_endWith _ _ _ h))
  | packCustom => exact .inr (.inl (givesResult_packCustom _ _ _ _ _ _ _ h))
  | _ => cases hi

theorem exec_decoderSame {i : Instr} {s t : State} (hi : leavesDecoder i = true) (h : exec i s = .next t) :
    DecoderSame s t := by
  obtain ⟨ms, -, rfl⟩ | ⟨r, rfl⟩ | ⟨frame, r, rfl⟩ := exec_cases_of_leavesDecoder hi h <;> constructor <;> rfl

/-! ### The instructions -/

/-- The instructions by what they do to the decoder: the transitions, the operations with no access to it, and the ones
that drive or read it. -/
inductive InstrFamily : Instr → Prop
  | transition {i : Instr} (h : ∀ s, exec i s = runTransition i s) : InstrFamily i
  | leavesDecoder {i : Instr} (h : leavesDecoder i = true) : InstrFamily i
  | frame (d src c : Byte) (payload : List Byte) (k : Byte) : InstrFamily (.frame d src c payload k)
  | reset (master : Byte) : InstrFamily (.reset master)
  | decReset : InstrFamily .decReset
  | check (target expCmd : Byte) (cap : Nat) : InstrFamily (.check target expCmd cap)
  | await (target expCmd : Byte) (timeoutMs cap : Nat) : InstrFamily (.await target expCmd timeoutMs cap)
  | op (target c : Byte) (req : Request) (cap : Nat) (rsp : Response) : InstrFamily (.op target c req cap rsp)

theorem InstrFamily.of (i : Instr) : InstrFamily i := by
  cases i with
  | rxbDiscard | rxbH0Hit | rxbH0Miss | rxbH1Hit | rxbH1Miss | rxbDest | rxbSrc | rxbCmd | rxbLenZero | rxbLenOk
  | rxbLenBad | rxbPayMore | rxbPayLast | rxbChkAccept | rxbChkDrop => exact .transition fun _ => rfl
  | frame => exact .frame ..
  | reset => exact .reset ..
  | decReset => exact .decReset
  | check => exact .check ..
  | await => exact .await ..
  | op => exact .op ..
  | _ => exact .leavesDecoder rfl

/-- FRAME is the arrival of its bytes (30 R92). -/
theorem execFrame_eq_next {d src c k : Byte} {payload : List Byte} {s t : State}
    (h : execFrame d src c payload k s = .next t) : feed (frameBytes d src c payload k) s = .next t :=
  (whenDefined_eq_next.1 h).2

theorem execCheck_eq_next {target expCmd : Byte} {cap : Nat} {s t : State}
    (h : execCheck target expCmd cap s = .next t) :
    ∃ r, t = ((s.setReady false).setDraws (s.draws + 1)).setResult r := by
  unfold execCheck at h
  split at h
  · obtain ⟨p, -, ht⟩ := checkFrame_eq_next.1 h
    exact ⟨_, ht⟩
  · cases h

theorem execCheck_keeps {target expCmd : Byte} {cap : Nat} {s t : State}
    (h : execCheck target expCmd cap s = .next t) : Keeps s t := by
  obtain ⟨r, rfl⟩ := execCheck_eq_next h
  exact (keeps_setReady_false s).trans ((keeps_setDraws _ _).trans (keeps_setResult _ r))

/-- OP ends with SEND's error, or goes on as a wait after the transmission (45 R230). -/
theorem execOp_cases {target c : Byte} {req : Request} {cap : Nat} {rsp : Response} {s t : State}
    (h : execOp target c req cap rsp s = .next t) :
    (∃ r, t = (transmit target c (packRequest req) s).2.setResult r) ∨
      ∃ w, enterWait w (transmit target c (packRequest req) s).2 = .next t := by
  obtain ⟨-, h⟩ := whenDefined_eq_next.1 h
  split at h
  case h_1 u hu => exact .inr ⟨_, by rwa [hu]⟩
  case h_2 e u hu =>
    rw [hu]
    exact .inl (givesResult_endWith (.err e) _ _ h)

theorem transmit_keeps (target c : Byte) (payload : List Byte) (s : State) :
    Keeps s (transmit target c payload s).2 := by
  obtain h | ⟨frame, h⟩ := transmit_state target c payload s <;> rw [h]
  · exact .refl s
  · exact keeps_handOver s frame

theorem transmit_ready (target c : Byte) (payload : List Byte) (s : State) :
    (transmit target c payload s).2.ready = s.ready := by
  obtain h | ⟨frame, h⟩ := transmit_state target c payload s <;> rw [h]
  rfl

/-- Every instruction but RESET and SET_TIMEOUT keeps configuration and invariant. -/
theorem exec_keeps {i : Instr} {s t : State} (h : exec i s = .next t) :
    Keeps s t ∨ (∃ m, i = .reset m ∧ t = s.construct m) ∨ ∃ ms, i = .setTimeout ms ∧ t = s.setTimeout ms := by
  cases InstrFamily.of i with
  | transition hi => exact .inl (runTransition_keeps ((hi s).symm.trans h))
  | leavesDecoder hi =>
    obtain hms | ⟨r, rfl⟩ | ⟨frame, r, rfl⟩ := exec_cases_of_leavesDecoder hi h
    · exact .inr (.inr hms)
    · exact .inl (keeps_setResult s r)
    · exact .inl ((keeps_handOver s frame).trans (keeps_setResult _ r))
  | frame => exact .inl (feed_keeps (execFrame_eq_next h))
  | reset m =>
    cases h
    exact .inr (.inl ⟨m, rfl, rfl⟩)
  | decReset =>
    cases h
    exact .inl (keeps_decoderReset s)
  | check => exact .inl (execCheck_keeps h)
  | await => exact .inl (enterWait_keeps h)
  | op target c req =>
    obtain ⟨r, rfl⟩ | ⟨w, hw⟩ := execOp_cases h
    · exact .inl ((transmit_keeps target c _ s).trans (keeps_setResult _ r))
    · exact .inl ((transmit_keeps target c _ s).trans (enterWait_keeps hw))

/-- Only an accepted checksum byte, alone or inside an arriving frame, makes a frame ready (10 R26). -/
theorem exec_ready {i : Instr} {s t : State} (h : exec i s = .next t) (hs : s.ready = false) (ht : t.ready = true) :
    (∃ b, i = .rxbChkAccept b) ∨ ∃ d src c p k, i = .frame d src c p k := by
  have hne : t.ready ≠ false := by simp [ht]
  cases InstrFamily.of i with
  | transition hi => exact .inl (runTransition_ready ((hi s).symm.trans h) hs ht)
  | leavesDecoder hi => exact absurd ((exec_decoderSame hi h).ready.trans hs) hne
  | frame d src c p k => exact .inr ⟨d, src, c, p, k, rfl⟩
  | reset | decReset =>
    cases h
    cases ht
  | check =>
    obtain ⟨r, rfl⟩ := execCheck_eq_next h
    cases ht
  | await => exact absurd (enterWait_not_ready h) hne
  | op target c req =>
    obtain ⟨r, rfl⟩ | ⟨w, hw⟩ := execOp_cases h
    · exact absurd ((transmit_ready target c _ s).trans hs) hne
    · exact absurd (enterWait_not_ready hw) hne

/-! ### The step -/

/-- A called operation that is well formed runs if the host is free or the operation may happen during a wait. -/
theorem step_call {s : State} {i : Instr} {rest : List Line} (hs : s.script = .call i :: rest) (hi : i.WellFormed) :
    step s = if s.wait.isSome && !duringWait i then .refused .hostWaiting else exec i (s.setScript rest) := by
  simp [step, hs, runLine, show i.wellFormed = true from hi]

/-- What a step can do: nothing on an empty script, receive a byte, go on with a wait or abandon it, or run a called
operation. -/
theorem step_cases {s t : State} (h : step s = .next t) :
    t = s ∨ ∃ l rest, s.script = l :: rest ∧
      ((∃ b, receive b (s.setScript rest) = .next t) ∨ (∃ ls, awaitLines ls (s.setScript rest) = .next t) ∨
        abandon (s.setScript rest) = .next t ∨ ∃ i, l = .call i ∧ exec i (s.setScript rest) = .next t) := by
  unfold step at h
  split at h
  case h_1 =>
    cases h
    exact .inl rfl
  case h_2 l rest hs =>
    refine .inr ⟨l, rest, hs, ?_⟩
    cases l with
    | rxb b => exact .inl ⟨b, (exec_decodeByte b _).symm.trans h⟩
    | poll bs d keep =>
      simp only [runLine] at h
      split at h
      · exact .inr (.inl ⟨_, h⟩)
      · cases h
    | abort =>
      simp only [runLine] at h
      split at h
      · exact .inr (.inr (.inl h))
      · cases h
    | call i =>
      simp only [runLine] at h
      split at h
      · cases h
      · split at h
        · cases h
        · exact .inr (.inr (.inr ⟨i, rfl, h⟩))

/-- Every step but RESET and SET_TIMEOUT keeps configuration and invariant. -/
theorem step_keeps {s t : State} (h : step s = .next t) :
    Keeps s t ∨ (∃ m rest, s.script = .call (.reset m) :: rest ∧ t = (s.setScript rest).construct m) ∨
      ∃ ms rest, s.script = .call (.setTimeout ms) :: rest ∧ t = (s.setScript rest).setTimeout ms := by
  obtain rfl | ⟨l, rest, hs, ⟨b, hb⟩ | ⟨ls, hls⟩ | ha | ⟨i, rfl, hi⟩⟩ := step_cases h
  · exact .inl (.refl t)
  · exact .inl ((keeps_setScript s rest).trans (runTransition_keeps hb))
  · exact .inl ((keeps_setScript s rest).trans (awaitLines_keeps hls))
  · cases ha
    exact .inl ((keeps_setScript s rest).trans ((keeps_setWait _ _).trans (keeps_setResult _ _)))
  · obtain hk | ⟨m, rfl, rfl⟩ | ⟨ms, rfl, rfl⟩ := exec_keeps hi
    · exact .inl ((keeps_setScript s rest).trans hk)
    · exact .inr (.inl ⟨m, rest, hs, rfl⟩)
    · exact .inr (.inr ⟨ms, rest, hs, rfl⟩)

/-- A constructed context has an empty buffer and a phase that promises nothing (10 R37 to R39). -/
theorem construct_inv (s : State) (m : Byte) : (s.construct m).Inv := State.inv_of_not_ready rfl rfl rfl

/-- SET_TIMEOUT writes no register the invariant speaks of (10 R31). -/
theorem setTimeout_inv {s : State} (ms : Nat) (hs : s.Inv) : (s.setTimeout ms).Inv :=
  (exec_decoderSame (i := .setTimeout ms) rfl rfl).inv rfl hs

/-! ### The statements -/

/-- Settles O57, by the step's cases: RESET establishes the invariant, SET_TIMEOUT writes nothing it speaks of, and every
other step is made of operations that each keep it, the decoder's transitions (`Moves.inv`) among them. -/
theorem stepKeepsTheInvariant : Obligations.StepKeepsTheInvariant := by
  intro s t hs h
  obtain hk | ⟨m, rest, -, rfl⟩ | ⟨ms, rest, -, rfl⟩ := step_keeps h
  · exact hk.inv hs
  · exact construct_inv _ m
  · exact setTimeout_inv ms ((keeps_setScript s rest).inv hs)

/-- Settles O59: the configuration by the step's cases, the ready flag and the decoder's registers by the instruction's
family. -/
theorem onlyItsOwnersWriteARegister : Obligations.OnlyItsOwnersWriteARegister := by
  refine ⟨fun s t h => ?_, fun _ _ _ => exec_ready, fun _ _ _ => exec_decoderSame⟩
  obtain hk | ⟨m, rest, hs, rfl⟩ | ⟨ms, rest, hs, rfl⟩ := step_keeps h
  · exact ⟨.inl hk.masterAddr, .inl hk.cmdTimeoutMs⟩
  · exact ⟨.inr ⟨m, rest, hs, rfl⟩, .inr (.inr ⟨m, rest, hs, rfl⟩)⟩
  · exact ⟨.inl rfl, .inr (.inl ⟨ms, rest, hs, rfl⟩)⟩

/-- Settles O29: a ready frame's length is at most 64, so its span can be read and CHECK completes. -/
theorem readyFrameCanAlwaysBeChecked : Obligations.ReadyFrameCanAlwaysBeChecked := by
  intro s target e cap hs hr
  obtain ⟨-, -, hready⟩ := id hs
  obtain ⟨hphase, -, h64, -⟩ := State.readyOk_iff.1 (hready hr)
  obtain ⟨p, hp⟩ := State.payload_isSome h64
  have hu : execCheck target e cap s = _ := (if_pos hr).trans (checkFrame_eq hp)
  exact ⟨_, hu, (execCheck_keeps hu).inv hs, hphase⟩

/-- Settles O8: the two lists are told apart by what may happen during a wait. -/
theorem waitingHostMayOnlyResetOrSetTheTimeout : Obligations.WaitingHostMayOnlyResetOrSetTheTimeout := by
  intro s i rest hs hw hi
  rw [step_call hs hi, hw]
  constructor
  · rintro (⟨m, rfl⟩ | ⟨ms, rfl⟩ | ⟨d, src, c, p, k, rfl⟩) <;> rfl
  · rintro (⟨t, e, cap, rfl⟩ | ⟨t, c, p, rfl⟩ | ⟨t, e, ms, cap, rfl⟩ | ⟨t, c, req, cap, rsp, rfl⟩ | rfl) <;> rfl

/-- Settles O58: nothing is stored, no frame is ready, and the phase after reset promises nothing. -/
theorem resetMeetsTheInvariant : Obligations.ResetMeetsTheInvariant :=
  State.inv_of_not_ready rfl rfl rfl

end Sys2Proof.Machine
end

section
/-! Proofs: decoding and encoding at the three places bytes are decoded (30 R70, R74, R93, 40 R100), how the step
fetches what it runs (30 R91), the arrival of a whole frame (40 R104 to R112), and the statements of 30_encoding.md. -/

namespace Sys2Proof

/-! ### At the decoder's byte input: the transitions (40 R100) -/

theorem one_le_toNat_iff {b : Byte} : 1 ≤ b.toNat ↔ b ≠ 0 :=
  Nat.one_le_iff_ne_zero.trans (not_congr (BitVec.toNat_eq (y := 0)).symm)

/-- The transition a byte selects: the byte is in its row's range, the selector in its row's state columns. -/
theorem decodeByte_spec (sel : Selector) (b : Byte) :
    (decodeByte sel b).WellFormed ∧ (decodeByte sel b).selectedBy sel = true ∧
      encode (decodeByte sel b) = some [b] := by
  obtain ⟨ready, phase, toMaster⟩ := sel
  cases ready with
  | true => exact ⟨rfl, rfl, rfl⟩
  | false =>
    cases phase with
    | awaitDestAddr | awaitSrcAddr | awaitCommand => exact ⟨rfl, rfl, rfl⟩
    | awaitChecksum => cases toMaster <;> exact ⟨rfl, rfl, rfl⟩
    | awaitHeader0 | awaitHeader1 =>
      simp only [decodeByte, Bool.false_eq_true, if_false]
      split
      case isTrue h => exact ⟨rfl, rfl, h ▸ rfl⟩
      case isFalse h => exact ⟨decide_eq_true h, rfl, rfl⟩
    | awaitLength =>
      simp only [decodeByte, Bool.false_eq_true, if_false]
      split
      case isTrue h => exact ⟨rfl, rfl, h ▸ rfl⟩
      case isFalse h0 =>
        split
        case isTrue h64 => exact ⟨decide_eq_true ⟨one_le_toNat_iff.2 h0, h64⟩, rfl, rfl⟩
        case isFalse h64 => exact ⟨decide_eq_true (Nat.not_le.1 h64), rfl, rfl⟩
    | awaitPayload left =>
      simp only [decodeByte, Bool.false_eq_true, if_false]
      split
      case isTrue h => exact ⟨rfl, h ▸ rfl, rfl⟩
      case isFalse h => exact ⟨rfl, decide_eq_true ⟨rfl, h⟩, rfl⟩

/-- A selected transition is one byte, and no other transition is selected by that byte. -/
theorem encode_of_selectedBy {i : Instr} {sel : Selector} (hw : i.WellFormed) (hs : i.selectedBy sel = true) :
    ∃ b, encode i = some [b] ∧ decodeByte sel b = i := by
  obtain ⟨ready, phase, toMaster⟩ := sel
  cases i with
  | rxbDiscard =>
    cases (show ready = true from hs)
    exact ⟨_, rfl, rfl⟩
  | rxbH0Hit | rxbH1Hit | rxbDest | rxbSrc | rxbCmd | rxbLenZero | rxbPayLast =>
    obtain ⟨rfl, rfl⟩ := of_decide_eq_true hs
    exact ⟨_, rfl, rfl⟩
  | rxbChkAccept | rxbChkDrop =>
    obtain ⟨rfl, rfl, rfl⟩ := of_decide_eq_true hs
    exact ⟨_, rfl, rfl⟩
  | rxbH0Miss | rxbH1Miss =>
    obtain ⟨rfl, rfl⟩ := of_decide_eq_true hs
    exact ⟨_, rfl, if_neg (of_decide_eq_true hw)⟩
  | rxbLenOk =>
    obtain ⟨rfl, rfl⟩ := of_decide_eq_true hs
    obtain ⟨h1, h64⟩ := of_decide_eq_true hw
    exact ⟨_, rfl, (if_neg (one_le_toNat_iff.1 h1)).trans (if_pos h64)⟩
  | rxbLenBad b =>
    obtain ⟨rfl, rfl⟩ := of_decide_eq_true hs
    have h64 : maxRxLen < b.toNat := of_decide_eq_true hw
    exact ⟨_, rfl, (if_neg (one_le_toNat_iff.1 (by omega))).trans (if_neg (Nat.not_le.2 h64))⟩
  | rxbPayMore =>
    cases phase with
    | awaitPayload left =>
      obtain ⟨rfl, hl⟩ := of_decide_eq_true hs
      exact ⟨_, rfl, if_neg hl⟩
    | _ => cases hs
  | _ => cases hs

/-! ### As a command byte (30 R74, R76, R81) -/

theorem commandByte_eq_cons (err : Bool) (opc : BitVec 7) : commandByte err opc = BitVec.cons err opc := rfl

@[simp] theorem commandByte_errFlagBit (err : Bool) (opc : BitVec 7) :
    (commandByte err opc).getLsbD errFlagBit = err := by
  rw [commandByte_eq_cons, BitVec.getLsbD_cons]
  rfl

/-- The low seven bits of a command byte are its operation code (30 R70). -/
@[simp] theorem commandByte_opc (err : Bool) (opc : BitVec 7) : (commandByte err opc &&& cmdMask).setWidth 7 = opc := by
  rw [BitVec.setWidth_and, show cmdMask.setWidth 7 = BitVec.allOnes 7 from rfl, BitVec.and_allOnes,
    commandByte_eq_cons, BitVec.setWidth_cons]

/-- Every byte is the command byte of its flag and its low seven bits. -/
theorem exists_commandByte_eq (b : Byte) : ∃ err opc, commandByte err opc = b :=
  ⟨_, _, BitVec.cons_msb_setWidth b⟩

theorem inGetRange_iff {opc : BitVec 7} : inGetRange opc = true ↔ opc.toNat ≤ 0x25 := by
  simp [inGetRange, getMin, getMax]

theorem inSetRange_iff {opc : BitVec 7} :
    inSetRange opc = true ↔ 0x40 ≤ opc.toNat ∧ opc.toNat ≤ 0x65 ∧ opc ≠ customOp := by
  rw [inSetRange, Bool.and_eq_true, decide_eq_true_eq, decide_eq_true_eq, and_assoc, setMin, setMax]

theorem inGetRange_eq_false_iff {opc : BitVec 7} : inGetRange opc = false ↔ 0x25 < opc.toNat := by
  rw [Bool.eq_false_iff, Ne, inGetRange_iff, Nat.not_le]

/-- No code is in both families (30 R74). -/
theorem not_inGetRange_of_inSetRange {opc : BitVec 7} (h : inSetRange opc = true) : inGetRange opc = false := by
  obtain ⟨h40, -, -⟩ := inSetRange_iff.1 h
  exact inGetRange_eq_false_iff.2 (by omega)

/-- The custom code lies outside the GET range (30 R74). -/
theorem ne_customOp_of_inGetRange {opc : BitVec 7} (h : inGetRange opc = true) : opc ≠ customOp := by
  rintro rfl
  cases h

/-- The row of a command byte, from its flag and its code. -/
theorem decodeCommand_commandByte (err : Bool) (opc : BitVec 7) :
    decodeCommand (commandByte err opc) =
      if err then .cmdErrflag opc
      else if opc = customOp then .cmdCustom
      else if inGetRange opc then .cmdGet opc
      else if inSetRange opc then .cmdSet opc
      else .cmdUnassigned opc := by
  simp only [decodeCommand, classify, commandByte_errFlagBit, commandByte_opc]
  split_ifs <;> rfl

theorem decodeCommand_spec (b : Byte) :
    (decodeCommand b).WellFormed ∧ (decodeCommand b).readAt .command = true ∧
      encode (decodeCommand b) = some [b] := by
  obtain ⟨err, opc, rfl⟩ := exists_commandByte_eq b
  rw [decodeCommand_commandByte]
  cases err with
  | true => exact ⟨rfl, rfl, rfl⟩
  | false =>
    rw [if_neg Bool.false_ne_true]
    split
    case isTrue h => exact ⟨rfl, rfl, h ▸ rfl⟩
    case isFalse hc =>
      split
      case isTrue hg => exact ⟨hg, rfl, rfl⟩
      case isFalse hg =>
        split
        case isTrue hs => exact ⟨hs, rfl, rfl⟩
        case isFalse hs => exact ⟨by simp [Instr.WellFormed, Instr.wellFormed, hc, hg, hs], rfl, rfl⟩

theorem encode_of_readAt_command {i : Instr} (hw : i.WellFormed) (hr : i.readAt .command = true) :
    ∃ b, encode i = some [b] ∧ decodeCommand b = i := by
  cases i with
  | cmdErrflag opc => exact ⟨_, rfl, decodeCommand_commandByte true opc⟩
  | cmdCustom => exact ⟨_, rfl, decodeCommand_commandByte false customOp⟩
  | cmdGet opc =>
    have hg : inGetRange opc = true := hw
    exact ⟨_, rfl, by simp [decodeCommand_commandByte, ne_customOp_of_inGetRange hg, hg]⟩
  | cmdSet opc =>
    have hs : inSetRange opc = true := hw
    obtain ⟨-, -, hc⟩ := inSetRange_iff.1 hs
    exact ⟨_, rfl, by simp [decodeCommand_commandByte, hc, not_inGetRange_of_inSetRange hs, hs]⟩
  | cmdUnassigned opc =>
    simp only [Instr.WellFormed, Instr.wellFormed, Bool.and_eq_true, Bool.not_eq_true', decide_eq_true_eq] at hw
    obtain ⟨⟨hg, hs⟩, hc⟩ := hw
    exact ⟨_, rfl, by simp [decodeCommand_commandByte, hc, hg, hs]⟩
  | _ => cases hr

/-! ### As a whole frame (30 R70, R84) -/

/-- The length byte of a payload that fits is its length (30 R70). -/
theorem toNat_lengthByte {n : Nat} (h : n ≤ maxRxLen) : (BitVec.ofNat 8 n).toNat = n :=
  Nat.mod_eq_of_lt (Nat.lt_of_le_of_lt h (by decide))

theorem decodeFrame_frameBytes (d src c k : Byte) {p : List Byte} (rest : List Byte) (h : p.length ≤ maxRxLen) :
    decodeFrame (frameBytes d src c p k ++ rest) = .ok (.frame d src c p k, rest) := by
  simp only [frameBytes, decodeFrame, List.cons_append, List.nil_append, List.append_assoc, ne_eq, not_true,
    if_false, toNat_lengthByte h, Nat.not_lt.2 h, List.drop_left, List.take_left]

/-- A frame is cut off behind its checksum byte, and no byte is lost or changed. -/
theorem decodeFrame_eq_ok {bs rest : List Byte} {i : Instr} (h : decodeFrame bs = .ok (i, rest)) :
    ∃ d src c p k, i = .frame d src c p k ∧ p.length ≤ maxRxLen ∧ bs = frameBytes d src c p k ++ rest := by
  unfold decodeFrame at h
  split at h
  case h_2 => cases h
  case h_1 b0 b1 d src c n tail =>
    split_ifs at h with h0 h1 hn
    split at h
    case h_2 => cases h
    case h_1 k after hk =>
      cases h
      have hlt : n.toNat < tail.length := List.length_lt_of_drop_ne_nil (hk ▸ List.cons_ne_nil k rest)
      have hlen : (tail.take n.toNat).length = n.toNat := List.length_take_of_le hlt.le
      have htail : tail = tail.take n.toNat ++ k :: rest := hk ▸ (List.take_append_drop n.toNat tail).symm
      refine ⟨d, src, c, _, k, rfl, hlen.trans_le (Nat.not_lt.1 hn), ?_⟩
      rw [frameBytes, hlen, BitVec.ofNat_toNat, not_ne_iff.1 h0, not_ne_iff.1 h1]
      simp [← htail]

end Sys2Proof

namespace Sys2Proof.Machine

/-! ### How the step fetches what it runs (30 R91; log 1, log 2) -/

theorem step_rxb {s : State} {b : Byte} {rest : List Line} (hs : s.script = .rxb b :: rest) :
    step s = exec (decodeByte s.selector b) (s.setScript rest) := by
  rw [step, hs]
  rfl

theorem step_call_ill_formed {s : State} {i : Instr} {rest : List Line} (hs : s.script = .call i :: rest)
    (hi : ¬ i.WellFormed) : step s = .refused .illFormed := by
  simp [step, hs, runLine, Bool.eq_false_iff.2 hi]

theorem step_call_of_free {s : State} {i : Instr} {rest : List Line} (hs : s.script = .call i :: rest)
    (hw : s.wait = none) (hi : i.WellFormed) : step s = exec i (s.setScript rest) := by
  rw [step_call hs hi, hw]
  rfl

/-- Whether the frame is for the master is asked in the checksum phase only (40 R111, R112). -/
theorem decodeByte_toMaster {phase : Phase} (h : phase ≠ .awaitChecksum) (ready m m' : Bool) (b : Byte) :
    decodeByte ⟨ready, phase, m⟩ b = decodeByte ⟨ready, phase, m'⟩ b := by
  cases phase with
  | awaitChecksum => exact absurd rfl h
  | _ => rfl

/-- A word read as a transition is read by a decoder that takes bytes, before the checksum (log 2). -/
theorem selector_of_tablePort {nbits w : Nat} {sel : Selector} (h : tablePort nbits w = some (.byte sel)) :
    ∃ phase, phase ≠ .awaitChecksum ∧ sel = ⟨false, phase, false⟩ := by
  simp only [tablePort] at h
  split_ifs at h <;> cases h <;> exact ⟨_, by simp, rfl⟩

/-- The first byte of a word laid out as bytes is its lowest one. -/
theorem wordBytes_eq_cons (nbits w : Nat) : ∃ rest, wordBytes nbits w = BitVec.ofNat 8 (w % 2 ^ nbits) :: rest :=
  ⟨_, rfl⟩

theorem decodeTableWord_eq_some {nbits w : Nat} {i : Instr} (h : decodeTableWord nbits w = some i) :
    ∃ port rest, tablePort nbits w = some port ∧ decode port (wordBytes nbits w) = .ok (i, rest) := by
  unfold decodeTableWord at h
  split at h
  case h_1 => cases h
  case h_2 port hp =>
    split at h
    case h_1 i' rest hd =>
      cases h
      exact ⟨port, rest, hp, hd⟩
    case h_2 => cases h

theorem withFetchWord_byte {nbits w : Nat} {sel : Selector} {i : Instr} (s : State)
    (hp : tablePort nbits w = some (.byte sel)) (hi : decodeTableWord nbits w = some i) :
    s.withFetchWord nbits w =
      ((s.setReady sel.ready).setPhase sel.phase).setScript (.rxb (BitVec.ofNat 8 (w % 2 ^ nbits)) :: s.script) := by
  rw [State.withFetchWord, placeWord, hp, hi]
  rfl

theorem withFetchWord_call {nbits w : Nat} {port : Port} {i : Instr} (s : State)
    (hp : tablePort nbits w = some port) (hi : decodeTableWord nbits w = some i) (hport : ∀ sel, port ≠ .byte sel) :
    s.withFetchWord nbits w = (s.setWait none).setScript (.call i :: s.script) := by
  cases port with
  | byte sel => exact absurd rfl (hport sel)
  | frame | command =>
    rw [State.withFetchWord, placeWord, hp, hi]
    rfl

/-! ### A frame that arrives whole (40 R104 to R112) -/

/-- Bytes fed in two pieces are fed in order (40 R116). -/
theorem feed_append (xs ys : List Byte) (s : State) : feed (xs ++ ys) s = andThen (feed xs s) (feed ys) := by
  induction xs generalizing s with
  | nil => rfl
  | cons x xs ih =>
    rw [List.cons_append, feed, feed, andThen_assoc]
    congr 1
    funext t
    exact ih t

/-- The awaited payload bytes go to the cells from `len - rem` upward; then the checksum is awaited (40 R109, R110). -/
theorem feed_payload {s : State} {left : Fin maxRxLen} {p : List Byte} (h : s.ready = false)
    (hp : s.phase = .awaitPayload left) (hleft : p.length = left.val + 1) (h1 : p.length ≤ s.len.toNat)
    (h64 : s.len.toNat ≤ 64) :
    feed p s = .next ((s.setPay (s.pay.writeAll (s.len.toNat - p.length) p)).setPhase .awaitChecksum) := by
  induction p generalizing s left with
  | nil => simp at hleft
  | cons b p ih =>
    rw [List.length_cons] at hleft h1
    rw [feed, receive_payload b h hp (by omega) h64, andThen_next, List.length_cons, Memory.writeAll, ← hleft]
    by_cases hl : left = 0
    · subst hl
      obtain rfl : p = [] := List.eq_nil_of_length_eq_zero (by simpa using hleft)
      rfl
    · have hsub := left_sub_one hl
      rw [if_neg hl, ih (by exact h) rfl (by omega) (by exact Nat.le_of_succ_le h1) (by exact h64),
        show s.len.toNat - (p.length + 1) + 1 = s.len.toNat - p.length by omega]
      rfl

/-- The length byte and the payload it announces, also when there is none (40 R107, D4). -/
theorem feed_length_payload {s : State} {p : List Byte} (h : s.ready = false) (hp : s.phase = .awaitLength)
    (h64 : p.length ≤ maxRxLen) :
    feed (BitVec.ofNat 8 p.length :: p) s =
      .next (((s.setLen (BitVec.ofNat 8 p.length)).setPay (s.pay.writeAll 0 p)).setPhase .awaitChecksum) := by
  cases p with
  | nil =>
    rw [feed]
    exact congrArg (andThen · _) (receive_len_zero h hp)
  | cons b p =>
    have hn := toNat_lengthByte h64
    have h0 : BitVec.ofNat 8 (b :: p).length ≠ 0 := one_le_toNat_iff.1 (by rw [hn]; simp)
    have hleft : (Fin.ofNat maxRxLen ((b :: p).length - 1)).val + 1 = (b :: p).length := by
      rw [Fin.val_ofNat, List.length_cons, Nat.add_sub_cancel, Nat.mod_eq_of_lt h64]
    rw [feed, receive_len_ok h hp h0 (hn.trans_le h64), andThen_next, hn,
      feed_payload (by exact h) rfl hleft.symm hn.ge (hn.trans_le h64)]
    simp only [State.setPhase_len, State.setLen_len, hn, Nat.sub_self]
    rfl

/-- The five bytes before the length: the header is matched, then three fields are captured (40 R102 to R106). -/
theorem feed_header {s : State} (d src c : Byte) (h : s.ready = false) (hp : s.phase = .awaitHeader0) :
    feed [header0, header1, d, src, c] s = .next ((((s.setDest d).setSrc src).setCmd c).setPhase .awaitLength) := by
  rw [feed, receive_header0 h hp, andThen_next, feed, receive_header1 (by exact h) rfl, andThen_next, feed,
    receive_dest d (by exact h) rfl, andThen_next, feed, receive_src src (by exact h) rfl, andThen_next, feed,
    receive_cmd c (by exact h) rfl]
  rfl

/-- The state with a whole frame captured, ready if it is for the master (40 R104 to R112, D3; log 34). -/
def State.captured (d src c : Byte) (p : List Byte) (k : Byte) (s : State) : State :=
  { s with
    phase := .awaitHeader0
    dest := d
    src := src
    cmd := c
    len := BitVec.ofNat 8 p.length
    chk := k
    pay := s.pay.writeAll 0 p
    ready := decide (d = s.masterAddr) }

/-- A frame that arrives whole at a searching decoder is captured: header and fields, length and payload, checksum. -/
theorem feed_frameBytes {s : State} (d src c k : Byte) {p : List Byte} (h : s.ready = false)
    (hp : s.phase = .awaitHeader0) (h64 : p.length ≤ maxRxLen) :
    feed (frameBytes d src c p k) s = .next (s.captured d src c p k) := by
  have hbytes : frameBytes d src c p k = [header0, header1, d, src, c] ++ ((BitVec.ofNat 8 p.length :: p) ++ [k]) := by
    simp [frameBytes]
  rw [hbytes, feed_append, feed_header d src c h hp, andThen_next, feed_append,
    feed_length_payload (by exact h) rfl h64, andThen_next, feed, receive_checksum k (by exact h) rfl]
  rfl

theorem captured_payload (d src c k : Byte) {p : List Byte} (s : State) (h64 : p.length ≤ maxRxLen) :
    (s.captured d src c p k).payload = some p :=
  State.payload_of_read (toNat_lengthByte h64).symm h64 fun n hn => by
    rw [← Memory.read_writeAll_inside s.pay p 0 n hn, Nat.zero_add]
    rfl

/-- Cells beyond the payload keep their content (10 R28). -/
theorem captured_cell_beyond (d src c k : Byte) {p : List Byte} (s : State) {a : Nat} (ha : p.length ≤ a) :
    (s.captured d src c p k).cell a = s.cell a := by
  simp only [State.cell, State.captured, Memory.read_writeAll_beyond _ _ (Nat.zero_add p.length ▸ ha)]

/-! ### The statements -/

/-- Settles O1, place by place: a selected transition and a command byte are the one byte that decodes to them, and a
frame's length byte says where it ends. -/
theorem decodingAnEncodingGivesTheInstructionBack : Obligations.DecodingAnEncodingGivesTheInstructionBack := by
  intro i port bs rest hw hr he
  cases port with
  | byte sel =>
    obtain ⟨b, hb, rfl⟩ := encode_of_selectedBy hw hr
    cases hb.symm.trans he
    rfl
  | command =>
    obtain ⟨b, hb, rfl⟩ := encode_of_readAt_command hw hr
    cases hb.symm.trans he
    rfl
  | frame =>
    cases i with
    | frame d src c p k =>
      cases he
      exact decodeFrame_frameBytes d src c k rest (of_decide_eq_true hw)
    | _ => cases hr

/-- Settles O2: a byte is the encoding of whatever it decodes to; a decoded frame ends where its length byte says. -/
theorem decodedBytesAreTheInstructionsEncoding : Obligations.DecodedBytesAreTheInstructionsEncoding := by
  intro port bs i rest h
  cases port with
  | byte sel =>
    cases bs with
    | nil => cases h
    | cons b bs =>
      cases h
      obtain ⟨hw, hs, he⟩ := decodeByte_spec sel b
      exact ⟨hw, hs, _, he, rfl⟩
  | command =>
    cases bs with
    | nil => cases h
    | cons b bs =>
      cases h
      obtain ⟨hw, hr, he⟩ := decodeCommand_spec b
      exact ⟨hw, hr, _, he, rfl⟩
  | frame =>
    obtain ⟨d, src, c, p, k, rfl, hp, rfl⟩ := decodeFrame_eq_ok h
    exact ⟨decide_eq_true hp, rfl, _, rfl, rfl⟩

/-- Settles O5: a word read as a transition is delivered to a decoder that decodes its byte alike, and any other word is
a well-formed call (`decodedBytesAreTheInstructionsEncoding`) by a host that is not waiting. -/
theorem tableWordRunsAsTheNextStep : Obligations.TableWordRunsAsTheNextStep := by
  intro s nbits w i hi
  obtain ⟨port, rest, hp, hd⟩ := decodeTableWord_eq_some hi
  cases port with
  | byte sel =>
    obtain ⟨phase, hphase, rfl⟩ := selector_of_tablePort hp
    obtain ⟨bs, hbs⟩ := wordBytes_eq_cons nbits w
    rw [hbs] at hd
    cases hd
    rw [withFetchWord_byte s hp hi]
    refine ⟨false, phase, s.wait, rfl, (step_rxb rfl).trans ?_⟩
    rw [decodeByte_toMaster hphase]
    rfl
  | frame | command =>
    obtain ⟨hw, -⟩ := decodedBytesAreTheInstructionsEncoding _ _ i rest hd
    rw [withFetchWord_call s hp hi (by simp)]
    exact ⟨s.ready, s.phase, none, rfl, step_call_of_free rfl rfl hw⟩

/-- Settles O22: the state reached is `State.captured`. -/
theorem frameIsCapturedWhole : Obligations.FrameIsCapturedWhole := by
  intro s d src c k p h hp h64
  have hrun : exec (.frame d src c p k) s = .next (s.captured d src c p k) :=
    whenDefined_eq_next.2 ⟨decide_eq_true h64, feed_frameBytes d src c k h hp h64⟩
  exact ⟨_, hrun, rfl, rfl, rfl, rfl, rfl, toNat_lengthByte h64, rfl, captured_payload d src c k s h64,
    fun _ => captured_cell_beyond d src c k s, decide_eq_true_iff⟩

/-- Settles O4: each word is evaluated. -/
theorem writtenOutWordsDecode : Obligations.WrittenOutWordsDecode :=
  ⟨rfl, rfl, rfl, rfl, rfl, rfl, rfl, rfl, rfl⟩

/-- Settles O6: the line is taken off before its byte is decoded, and decoding does not read the script. -/
theorem stepRunsTheReceivedByte : Obligations.StepRunsTheReceivedByte := fun _ _ _ => step_rxb

/-- Settles O7: the check of well-formedness comes before the call. -/
theorem stepRunsTheCalledOperation : Obligations.StepRunsTheCalledOperation :=
  fun _ _ _ hs hw => ⟨step_call_of_free hs hw, step_call_ill_formed hs⟩

/-- Settles O56: the code lies in the range its row is defined on (30 R74, R81). -/
theorem commandBytesAreClassified : Obligations.CommandBytesAreClassified := by
  intro s op
  refine ⟨rfl, rfl, fun hg => ?get, fun h40 h65 hc => ?set, fun h => ?unassigned⟩
  case get => exact whenDefined_eq_next.2 ⟨inGetRange_iff.2 hg, rfl⟩
  case set => exact whenDefined_eq_next.2 ⟨inSetRange_iff.2 ⟨h40, h65, hc⟩, rfl⟩
  case unassigned =>
    refine whenDefined_eq_next.2 ⟨?_, rfl⟩
    have hg : inGetRange op = false := inGetRange_eq_false_iff.2 (by omega)
    have hs : inSetRange op = false := by
      rw [Bool.eq_false_iff, Ne, inSetRange_iff]
      omega
    have hc : op ≠ customOp := by
      rintro rfl
      simp [customOp] at h
    simp [hg, hs, hc]

end Sys2Proof.Machine
end

section
/-! Proofs: the row a byte selects at the decoder and its effect there (40 R100 to R110), the round trip of an encoded
frame through the decoder (40 R117), and the statements of 40_frame_decoder.md. -/

namespace Sys2Proof.Machine

/-! ### The row a byte selects, phase by phase (40 R100) -/

theorem decodeByte_of_ready {s : State} (b : Byte) (h : s.ready = true) :
    decodeByte s.selector b = .rxbDiscard b :=
  if_pos h

/-- A decoder that takes bytes decodes them by its phase and by whether the frame is for the master. -/
theorem decodeByte_of_phase {s : State} {p : Phase} (b : Byte) (h : s.ready = false) (hp : s.phase = p) :
    decodeByte s.selector b = decodeByte ⟨false, p, decide (s.dest = s.masterAddr)⟩ b := by
  rw [State.selector, h, hp]

/-- What a byte does where it is received is what the row it selects does. -/
theorem selects_and_runs {s t : State} {b : Byte} {i : Instr} (hi : decodeByte s.selector b = i)
    (ht : receive b s = .next t) : decodeByte s.selector b = i ∧ exec i s = .next t :=
  ⟨hi, hi ▸ (exec_decodeByte b s).trans ht⟩

/-! ### Every byte is taken (40 R100) -/

/-- In every state of the invariant a byte has a next state: in AwaitPayload the cell it goes to exists (10 R22), in
every other phase nothing is asked of the state. -/
theorem exists_receive_eq_next {s : State} (b : Byte) (hs : s.Inv) : ∃ t, receive b s = .next t := by
  obtain ⟨-, hphase, -⟩ := hs
  cases hr : s.ready with
  | true => exact ⟨_, receive_ready hr⟩
  | false =>
    cases hp : s.phase with
    | awaitHeader0 =>
      by_cases hb : b = header0
      · exact ⟨_, hb ▸ receive_header0 hr hp⟩
      · exact ⟨_, receive_not_header0 hr hp hb⟩
    | awaitHeader1 =>
      by_cases hb : b = header1
      · exact ⟨_, hb ▸ receive_header1 hr hp⟩
      · exact ⟨_, receive_not_header1 hr hp hb⟩
    | awaitDestAddr => exact ⟨_, receive_dest b hr hp⟩
    | awaitSrcAddr => exact ⟨_, receive_src b hr hp⟩
    | awaitCommand => exact ⟨_, receive_cmd b hr hp⟩
    | awaitLength =>
      by_cases h0 : b = 0
      · exact ⟨_, h0 ▸ receive_len_zero hr hp⟩
      · by_cases h64 : b.toNat ≤ 64
        · exact ⟨_, receive_len_ok hr hp h0 h64⟩
        · exact ⟨_, receive_len_bad hr hp (Nat.not_le.1 h64)⟩
    | awaitPayload left =>
      obtain ⟨hle, h64, -⟩ := (State.phaseOk_iff_of_awaitPayload hp).1 hphase
      exact ⟨_, receive_payload b hr hp hle h64⟩
    | awaitChecksum => exact ⟨_, receive_checksum b hr hp⟩

/-! ### A transition that is not selected (40 R100; log 19) -/

theorem whenSelected_of_eq_false {sel : Bool} (o : Out) (h : sel = false) :
    whenSelected sel o = .refused .notSelected := by
  rw [h, whenSelected_false]

/-- A row that also tests its byte is refused where its phase is not the awaited one. -/
theorem whenSelected_and_of_eq_false {sel : Bool} (inRange : Bool) (o : Out) (h : sel = false) :
    whenSelected (sel && inRange) o = .refused .notSelected :=
  whenSelected_of_eq_false o (Bool.and_eq_false_iff.2 (.inl h))

theorem execRxbPayMore_not_selected {s : State} {b : Byte} (h : (Instr.rxbPayMore b).selectedBy s.selector = false) :
    execRxbPayMore b s = .refused .notSelected := by
  simp only [Instr.selectedBy, State.selector] at h
  unfold execRxbPayMore
  cases hp : s.phase with
  | awaitPayload left =>
    rw [hp] at h
    exact whenSelected_of_eq_false _ h
  | _ => rfl

/-- A transition is guarded by its row's state columns, so it runs in no state that does not meet them. -/
theorem exec_not_selected {i : Instr} {s : State} {sel : Selector} (hi : i.selectedBy sel = true)
    (h : i.selectedBy s.selector = false) : exec i s = .refused .notSelected := by
  cases i with
  | rxbDiscard | rxbH0Hit | rxbH1Hit | rxbDest | rxbSrc | rxbCmd | rxbLenZero | rxbPayLast =>
    exact whenSelected_of_eq_false _ h
  | rxbH0Miss | rxbH1Miss | rxbLenOk | rxbLenBad => exact whenSelected_and_of_eq_false _ _ h
  | rxbPayMore => exact execRxbPayMore_not_selected h
  | rxbChkAccept | rxbChkDrop =>
    refine whenSelected_of_eq_false _ ?_
    simpa [Instr.selectedBy, State.selector, State.awaits, and_assoc] using h
  | _ => cases hi

/-! ### The cells of the payload buffer (10 R25) -/

theorem State.cell_write_same (s : State) {a : Nat} (b : Byte) (ha : a < payCells) :
    (s.setPay (s.pay.write a b)).cell a = some b :=
  State.cell_of_read ha (Memory.read_write_same s.pay a b)

theorem State.cell_write_other (s : State) {a c : Nat} (b : Byte) (h : c ≠ a) :
    (s.setPay (s.pay.write a b)).cell c = s.cell c := by
  simp only [State.cell, State.setPay_pay, State.setPay_built, Memory.read_write_other _ b h]

/-! ### The checksum (30 R71) -/

/-- The exclusive or of a sequence may be taken from either end. -/
theorem foldl_xor_eq_xorBytes (p : List Byte) : p.foldl (· ^^^ ·) 0 = xorBytes p :=
  List.foldl_eq_foldr

/-! ### The statements -/

/-- Settles O23: the bytes ENCODE answers are a whole frame for the master, which `feed_frameBytes` captures, and its
checksum byte is the exclusive or of what was captured. -/
theorem encodedFrameRoundTripsThroughTheDecoder : Obligations.EncodedFrameRoundTripsThroughTheDecoder := by
  intro s d src c p h63 hr hp hd
  have h64 : p.length ≤ maxRxLen := Nat.le_succ_of_le h63
  refine ⟨encodeFrame d src c p, _, whenDefined_eq_next.2 ⟨decide_eq_true h63, rfl⟩,
    feed_frameBytes d src c _ hr hp h64, rfl, decide_eq_true hd.symm, rfl, toNat_lengthByte h64,
    captured_payload d src c _ s h64, ?_⟩
  rw [foldl_xor_eq_xorBytes]
  rfl

/-- Settles O3: the transition chosen has the three properties (`decodeByte_spec`), and whatever has them is the one
chosen (`encode_of_selectedBy`). -/
theorem everyByteSelectsExactlyOneTransition : Obligations.EveryByteSelectsExactlyOneTransition := by
  intro sel b i
  constructor
  · rintro ⟨hw, hs, he⟩
    obtain ⟨b', hb', rfl⟩ := encode_of_selectedBy hw hs
    cases hb'.symm.trans he
    rfl
  · rintro rfl
    exact decodeByte_spec sel b

/-- Settles O14: the buffer with the byte written at `len - rem`, and the two rows by whether `rem` is 1. -/
theorem payloadBytesAreStoredAtTheirOffset : Obligations.PayloadBytesAreStoredAtTheirOffset := by
  intro s b left hr hp hle h64
  have hdecode : decodeByte s.selector b = if left = 0 then .rxbPayLast b else .rxbPayMore b :=
    decodeByte_of_phase b hr hp
  have hreceive := receive_payload b hr hp hle h64
  have hcell : s.len.toNat - (left.val + 1) < payCells :=
    (Nat.sub_lt_self left.val.succ_pos hle).trans_le h64
  refine ⟨s.pay.write (s.len.toNat - (left.val + 1)) b, s.cell_write_same b hcell,
    fun a => s.cell_write_other b, fun hl => ?more, fun hl => ?last⟩
  case more =>
    rw [if_neg hl] at hdecode hreceive
    obtain ⟨hi, ht⟩ := selects_and_runs hdecode hreceive
    exact ⟨hi, left - 1, left_sub_one hl, ht⟩
  case last =>
    rw [if_pos hl] at hdecode hreceive
    exact selects_and_runs hdecode hreceive

/-- Settles O16: the selected transition is what receiving the byte runs, and every transition keeps the invariant. -/
theorem everyByteIsTakenByTheDecoder : Obligations.EveryByteIsTakenByTheDecoder := by
  intro s b hs
  obtain ⟨t, ht⟩ := exists_receive_eq_next b hs
  exact ⟨t, (exec_decodeByte b s).trans ht, (runTransition_keeps ht).inv hs, receive_decoderOnly ht⟩

/-- Settles O17, transition by transition (`exec_not_selected`); no other instruction is selected anywhere. -/
theorem transitionsRunOnlyWhereSelected : Obligations.TransitionsRunOnlyWhereSelected :=
  fun _ _ _ => exec_not_selected

/-- Settles O10: the ready flag alone selects the row that changes nothing. -/
theorem byteIsDiscardedWhileAFrameIsReady : Obligations.ByteIsDiscardedWhileAFrameIsReady :=
  fun _ b h => selects_and_runs (decodeByte_of_ready b h) (receive_ready h)

/-- Settles O11: in each of the two phases a byte is the awaited one, or any other. -/
theorem headerBytesMustAppearInOrder : Obligations.HeaderBytesMustAppearInOrder := by
  intro s b hr
  refine ⟨fun hp => ?hit0, fun hp hb => ?miss0, fun hp => ?hit1, fun hp hb => ?miss1⟩
  case hit0 => exact selects_and_runs (decodeByte_of_phase header0 hr hp) (receive_header0 hr hp)
  case miss0 =>
    exact selects_and_runs ((decodeByte_of_phase b hr hp).trans (if_neg hb)) (receive_not_header0 hr hp hb)
  case hit1 => exact selects_and_runs (decodeByte_of_phase header1 hr hp) (receive_header1 hr hp)
  case miss1 =>
    exact selects_and_runs ((decodeByte_of_phase b hr hp).trans (if_neg hb)) (receive_not_header1 hr hp hb)

/-- Settles O12: in each of the three phases the byte selects the row that captures it. -/
theorem fixedFieldsAreCapturedInOrder : Obligations.FixedFieldsAreCapturedInOrder := by
  intro s b hr
  refine ⟨fun hp => ?dest, fun hp => ?src, fun hp => ?cmd⟩
  case dest => exact selects_and_runs (decodeByte_of_phase b hr hp) (receive_dest b hr hp)
  case src => exact selects_and_runs (decodeByte_of_phase b hr hp) (receive_src b hr hp)
  case cmd => exact selects_and_runs (decodeByte_of_phase b hr hp) (receive_cmd b hr hp)

end Sys2Proof.Machine
end

section
/-! PROOF. The Frame Check unit: what each of its tests answers, in their fixed order (41 R130, R134). -/

namespace Sys2Proof.Machine

section Verdict

variable {s : State} {target expCmd : Byte} {cap : Nat} {p : List Byte}

/-- CHECK on a ready frame whose span is readable validates and consumes it (41 R130, R131). -/
theorem execCheck_eq (hr : s.ready = true) (hp : s.payload = some p) :
    execCheck target expCmd cap s =
      .next (((s.setReady false).setDraws (s.draws + 1)).setResult (some (s.verdict target expCmd cap p))) :=
  (if_pos hr).trans (checkFrame_eq hp)

/-- The span's checksum, with the payload taken from its first byte on. -/
theorem State.spanLrc_eq_foldl (s : State) (p : List Byte) :
    s.spanLrc p = s.dest ^^^ s.src ^^^ s.cmd ^^^ s.len ^^^ p.foldl (· ^^^ ·) 0 := by
  rw [foldl_xor_eq_xorBytes]
  rfl

/-- The remote code is the payload byte at offset 1 where there is one (41 R133 (c)). -/
theorem State.remoteCode_of_one_lt (s : State) {p : List Byte} (h : 1 < p.length) : s.remoteCode p = p[1] := by
  match p, h with
  | _ :: _ :: _, _ => rfl

theorem State.verdict_of_spanLrc_ne (hsum : s.spanLrc p ≠ s.chk) :
    s.verdict target expCmd cap p = .err .badChecksum :=
  if_pos hsum

variable (hsum : s.spanLrc p = s.chk)
include hsum

theorem State.verdict_of_errFlag (herr : errFlag s.cmd = true) :
    s.verdict target expCmd cap p = .err (.remoteError (s.remoteCode p)) := by
  rw [State.verdict, if_neg (not_not.2 hsum), if_pos herr]

variable (herr : ¬ errFlag s.cmd = true)
include herr

theorem State.verdict_of_unmatchedAddress (haddr : target ≠ broadcast ∧ s.src ≠ target) :
    s.verdict target expCmd cap p = .err .unmatchedAddress := by
  rw [State.verdict, if_neg (not_not.2 hsum), if_neg herr, if_pos haddr]

variable (haddr : ¬ (target ≠ broadcast ∧ s.src ≠ target))
include haddr

theorem State.verdict_of_unmatchedCommand (hcmd : s.cmd &&& cmdMask ≠ expCmd) :
    s.verdict target expCmd cap p = .err .unmatchedCommand := by
  rw [State.verdict, if_neg (not_not.2 hsum), if_neg herr, if_neg haddr, if_pos hcmd]

/-- With the first four tests passed, the capacity alone decides; the payload is as long as `len` says
(41 R137, R138). -/
theorem State.verdict_of_matched (hcmd : s.cmd &&& cmdMask = expCmd) (hp : s.payload = some p) :
    s.verdict target expCmd cap p = if cap < p.length then .err .bufferTooSmall else .ok (.bytes p) := by
  rw [State.verdict, if_neg (not_not.2 hsum), if_neg herr, if_neg haddr, if_neg (not_not.2 hcmd),
    State.payload_length hp]

end Verdict

/-- Settles O26: CHECK's result is the verdict, and each test is reached when the ones before it pass. -/
theorem checkAppliesItsTestsInOrder : Obligations.CheckAppliesItsTestsInOrder := by
  intro s target e cap p hr hp
  rw [← State.spanLrc_eq_foldl]
  refine ⟨_, execCheck_eq hr hp, fun hbad => ?sum, fun hsum herr => ?err, fun hsum herr haddr => ?addr,
    fun hsum herr haddr hcmd => ?cmd, fun hsum herr haddr hcmd hcap => ?tooSmall,
    fun hsum herr haddr hcmd hcap => ?ok⟩
  case sum => exact congrArg some (State.verdict_of_spanLrc_ne hbad)
  case err => exact ⟨_, congrArg some (State.verdict_of_errFlag (not_not.1 hsum) herr), s.remoteCode_of_one_lt⟩
  case addr => exact congrArg some (State.verdict_of_unmatchedAddress (not_not.1 hsum) herr haddr)
  case cmd => exact congrArg some (State.verdict_of_unmatchedCommand (not_not.1 hsum) herr haddr hcmd)
  case tooSmall =>
    exact congrArg some ((State.verdict_of_matched (not_not.1 hsum) herr haddr (not_not.1 hcmd) hp).trans
      (if_pos hcap))
  case ok =>
    exact congrArg some ((State.verdict_of_matched (not_not.1 hsum) herr haddr (not_not.1 hcmd) hp).trans
      (if_neg (Nat.not_lt.2 hcap)))

end Sys2Proof.Machine
end

section
/-! PROOF. The Frame Serializer: the bytes of an encoded frame, and what SEND hands over (42 R150, R151). -/

namespace Sys2Proof.Machine

/-- An encoded frame, byte by byte, its checksum taken from the first payload byte on (42 R151). -/
theorem encodeFrame_eq (d src c : Byte) (p : List Byte) :
    encodeFrame d src c p = [0x55, 0xAA, d, src, c, BitVec.ofNat 8 p.length] ++ p ++
      [d ^^^ src ^^^ c ^^^ BitVec.ofNat 8 p.length ^^^ p.foldl (· ^^^ ·) 0] := by
  rw [foldl_xor_eq_xorBytes]
  rfl

/-- With the context and the timer good, no test keeps a payload of at most 63 bytes from the transport
(42 R152, R153). -/
theorem State.sendError_eq_none {s : State} {p : List Byte} (hctx : s.ctxValid = true) (htimer : s.timerOk = true)
    (h63 : p.length ≤ maxTxLen) : s.sendError p = none := by
  simp [State.sendError, hctx, htimer, h63]

/-- SEND past its tests hands one frame over, and the transport's answer is its result (42 R154). -/
theorem execSend_of_sendError_eq_none {s : State} {p : List Byte} (target c : Byte) (h : s.sendError p = none) :
    execSend target c p s = .next ((s.handOver (encodeFrame target s.masterAddr c p)).setResult
      (some (if s.transportAnswer then .ok .unit else .err .transportFailure))) := by
  rw [execSend, transmit, h]
  cases s.transportAnswer <;> rfl

/-- Settles O33: ENCODE answers the encoded frame, SEND hands it over from the master's address, and `encodeFrame_eq`
says which bytes it is. -/
theorem encodeBuildsTheFrame : Obligations.EncodeBuildsTheFrame := by
  intro s d src c p h63
  simp only [← encodeFrame_eq]
  refine ⟨whenDefined_eq_next.2 ⟨decide_eq_true h63, rfl⟩, fun hctx htimer => ?send⟩
  case send =>
    exact ⟨_, s.transportAnswer, execSend_of_sendError_eq_none d c (State.sendError_eq_none hctx htimer h63), rfl⟩

end Sys2Proof.Machine
end

section
/-! PROOF. The fields of the Payload Codec (43): where an operation is defined it answers its value, a u16 is its two
bytes, low byte first, and an s16 is the u16 of its value modulo 65536. -/

namespace Sys2Proof.Machine

/-! ### What each operation answers on its domain (43 R166 to R170) -/

section Answers

variable {bs : List Byte} {a : Nat}

theorem exec_unpackU8 (s : State) (h : a < bs.length) :
    exec (.unpackU8 bs a) s = .next (s.giving (.ok (.nat (unpackU8 bs a)))) :=
  whenDefined_eq_next.2 ⟨decide_eq_true h, rfl⟩

theorem exec_unpackU16 (s : State) (h : a + 2 ≤ bs.length) :
    exec (.unpackU16 bs a) s = .next (s.giving (.ok (.nat (unpackU16 bs a)))) :=
  whenDefined_eq_next.2 ⟨decide_eq_true h, rfl⟩

theorem exec_unpackS16 (s : State) (h : a + 2 ≤ bs.length) :
    exec (.unpackS16 bs a) s = .next (s.giving (.ok (.int (unpackS16 bs a)))) :=
  whenDefined_eq_next.2 ⟨decide_eq_true h, rfl⟩

theorem exec_packS16 {v : Int} (s : State) (h : -32768 ≤ v) (h' : v ≤ 32767) :
    exec (.packS16 v) s = .next (s.giving (.ok (.bytes (packS16 v)))) :=
  whenDefined_eq_next.2 ⟨decide_eq_true ⟨h, h'⟩, rfl⟩

end Answers

/-! ### Packing (43 R167, R169) -/

theorem packU16_eq (v : Word16) :
    packU16 v = [BitVec.ofNat 8 (v.toNat % 256), BitVec.ofNat 8 (v.toNat / 256)] := by
  have hlow : v.setWidth 8 = BitVec.ofNat 8 (v.toNat % 256) := by bv_omega
  have hhigh : (v >>> 8).setWidth 8 = BitVec.ofNat 8 (v.toNat / 256) := by bv_omega
  rw [packU16, hlow, hhigh]

@[simp] theorem length_packU16 (v : Word16) : (packU16 v).length = 2 := rfl

@[simp] theorem length_packS16 (v : Int) : (packS16 v).length = 2 := rfl

/-- The residue modulo 65536 is the pattern whose bytes are packed (43 R169). -/
theorem packS16_eq (v : Int) :
    packS16 v = [BitVec.ofInt 8 (v % 65536 % 256), BitVec.ofInt 8 (v % 65536 / 256)] := by
  obtain ⟨n, hn⟩ := Int.eq_ofNat_of_zero_le (Int.emod_nonneg v (by decide : (65536 : Int) ≠ 0))
  have hlt : n < 2 ^ 16 := by omega
  rw [packS16, packU16_eq, hn, Int.toNat_natCast, BitVec.toNat_ofNat, Nat.mod_eq_of_lt hlt]
  rfl

/-! ### Unpacking, at any offset (43 R166, R168) -/

theorem unpackU8_eq {bs : List Byte} {a : Nat} (h : a < bs.length) : unpackU8 bs a = bs[a].toNat := by
  simp [unpackU8, byteAt, h]

theorem unpackU16_eq {bs : List Byte} {a : Nat} (h : a + 1 < bs.length) :
    unpackU16 bs a = bs[a].toNat + 256 * bs[a + 1].toNat := by
  rw [unpackU16, unpackU8_eq (Nat.lt_of_succ_lt h), unpackU8_eq h]

/-! ### Round trips (43 R168, R170) -/

theorem packU16_two_bytes (lo hi : Byte) : packU16 (BitVec.ofNat 16 (lo.toNat + 256 * hi.toNat)) = [lo, hi] := by
  have hlow : (BitVec.ofNat 16 (lo.toNat + 256 * hi.toNat)).setWidth 8 = lo := by bv_omega
  have hhigh : (BitVec.ofNat 16 (lo.toNat + 256 * hi.toNat) >>> 8).setWidth 8 = hi := by bv_omega
  rw [packU16, hlow, hhigh]

/-- A packed u16 is read back wherever it stands. -/
theorem unpackU16_packU16 (bs post : List Byte) (v : Word16) :
    unpackU16 (bs ++ packU16 v ++ post) bs.length = v.toNat := by
  have hlen : bs.length + 1 < (bs ++ packU16 v ++ post).length := by
    rw [List.append_assoc, List.length_append, List.length_append, length_packU16]
    omega
  have hsum : v.toNat % 256 + 256 * (v.toNat / 256 % 256) = v.toNat := by omega
  rw [unpackU16_eq hlen]
  simpa [packU16_eq] using hsum

/-- Sign extension undoes the reduction modulo 65536 on the signed range (43 R169, R170). -/
theorem sext16_emod {v : Int} (h : -32768 ≤ v) (h' : v ≤ 32767) : sext16 (v % 65536).toNat = v := by
  unfold sext16
  split <;> omega

/-- A packed s16 is read back wherever it stands. -/
theorem unpackS16_packS16 (bs post : List Byte) {v : Int} (h : -32768 ≤ v) (h' : v ≤ 32767) :
    unpackS16 (bs ++ packS16 v ++ post) bs.length = v := by
  have hlt : (v % 65536).toNat < 2 ^ 16 := by omega
  rw [unpackS16, packS16, unpackU16_packU16, BitVec.toNat_ofNat, Nat.mod_eq_of_lt hlt, sext16_emod h h']

/-! ### The statements -/

/-- Settles O45: each read is the sum of its own bytes, and each round trip is that of its field. -/
theorem integerFieldsUnpackAndInvertPacking : Obligations.IntegerFieldsUnpackAndInvertPacking := by
  intro s bs a
  refine ⟨fun h => ?readU8, fun h => ⟨?readU16, ?readS16, ?repackU16⟩,
    fun post => ⟨fun v => ?backU16, fun v hl hu => ?backS16⟩⟩
  case readU8 => rw [exec_unpackU8 s h, unpackU8_eq h]
  case readU16 => rw [exec_unpackU16 s h, unpackU16_eq h]
  case readS16 => rw [exec_unpackS16 s h, unpackS16, unpackU16_eq h, sext16]
  case repackU16 => rw [← packU16_two_bytes bs[a] bs[a + 1]]; rfl
  case backU16 =>
    refine ⟨packU16 v, rfl, ?_⟩
    rw [exec_unpackU16 s (by simp), unpackU16_packU16]
  case backS16 =>
    refine ⟨packS16 v, exec_packS16 s hl hu, ?_⟩
    rw [exec_unpackS16 s (by simp), unpackS16_packS16 bs post hl hu]

/-- Settles O44: PACK_U8 is its byte as it stands; the other two are the bytes `packU16_eq` and `packS16_eq` give. -/
theorem integerFieldsPackLittleEndian : Obligations.IntegerFieldsPackLittleEndian := by
  intro s
  refine ⟨fun v => rfl, fun v => ?u16, fun v hl hu => ?s16⟩
  case u16 => rw [← packU16_eq]; rfl
  case s16 => rw [← packS16_eq, exec_packS16 s hl hu]

end Sys2Proof.Machine
end

section
/-! PROOF. The layouts of the Payload Codec (44): fields of one width packed one after the other stand at multiples of
that width, so an array, an interleaved record or a block is read back field by field. -/

namespace Sys2Proof.Machine

/-! ### Fields of one width, packed one after the other -/

section Fields

variable {α β : Type} {pack : α → List Byte} {w : Nat}

theorem length_flatMap_of_width (hw : ∀ v, (pack v).length = w) (vs : List α) :
    (vs.flatMap pack).length = w * vs.length := by
  simp [List.length_flatMap, hw, Nat.mul_comm]

/-- Field `k` of a packed sequence, with the fields before it and those after it. -/
theorem flatMap_eq_around (pack : α → List Byte) {vs : List α} {k : Nat} (hk : k < vs.length) :
    vs.flatMap pack = (vs.take k).flatMap pack ++ pack vs[k] ++ (vs.drop (k + 1)).flatMap pack := by
  have hsplit : vs = vs.take k ++ [vs[k]] ++ vs.drop (k + 1) := by simp
  conv_lhs => rw [hsplit]
  simp only [List.flatMap_append, List.flatMap_singleton]

/-- What a read finds where a packed field stands, it finds at `w * k` in a sequence of fields of width `w`, whatever
bytes stand around the sequence. -/
theorem read_flatMap (hw : ∀ v, (pack v).length = w) {vs : List α} {k : Nat} (hk : k < vs.length)
    {read : List Byte → Nat → β} {x : β} (hread : ∀ pre post, read (pre ++ pack vs[k] ++ post) pre.length = x)
    (pre post : List Byte) : read (pre ++ vs.flatMap pack ++ post) (pre.length + w * k) = x := by
  have hbefore : (pre ++ (vs.take k).flatMap pack).length = pre.length + w * k := by
    rw [List.length_append, length_flatMap_of_width hw, List.length_take_of_le hk.le]
  rw [flatMap_eq_around pack hk, ← hbefore,
    ← hread (pre ++ (vs.take k).flatMap pack) ((vs.drop (k + 1)).flatMap pack ++ post)]
  simp only [List.append_assoc]

/-- Reading at every multiple of the width gives every packed value back, in order. -/
theorem map_read_flatMap (hw : ∀ v, (pack v).length = w) {read : List Byte → Nat → β} {val : α → β} {vs : List α}
    (hread : ∀ v ∈ vs, ∀ pre post, read (pre ++ pack v ++ post) pre.length = val v) (pre post : List Byte) :
    (List.range vs.length).map (fun k => read (pre ++ vs.flatMap pack ++ post) (pre.length + w * k)) = vs.map val := by
  refine List.ext_getElem (by simp) fun k _ hk => ?_
  have hk : k < vs.length := by simpa using hk
  simpa using read_flatMap hw hk (hread vs[k] (List.getElem_mem hk)) pre post

end Fields

/-! ### 16-bit fields under a reading (43 R175, 44 R189, R192) -/

theorem inRange16_unsigned_iff {v : Int} : inRange16 .unsigned v = true ↔ 0 ≤ v ∧ v ≤ 65535 := decide_eq_true_iff

theorem inRange16_signed_iff {v : Int} : inRange16 .signed v = true ↔ -32768 ≤ v ∧ v ≤ 32767 := decide_eq_true_iff

@[simp] theorem length_pack16 (r : Reading) (v : Int) : (pack16 r v).length = 2 := by
  cases r <;> rfl

/-- A value packed under a reading that has it in range is read back under it, wherever it stands. -/
theorem unpack16_pack16 {r : Reading} {v : Int} (h : inRange16 r v = true) (pre post : List Byte) :
    unpack16 r (pre ++ pack16 r v ++ post) pre.length = v := by
  cases r with
  | unsigned =>
    obtain ⟨hl, hu⟩ := inRange16_unsigned_iff.1 h
    have hlt : v.toNat < 2 ^ 16 := by omega
    rw [unpack16, pack16, unpackU16_packU16, BitVec.toNat_ofNat, Nat.mod_eq_of_lt hlt, Int.toNat_of_nonneg hl]
  | signed =>
    obtain ⟨hl, hu⟩ := inRange16_signed_iff.1 h
    exact unpackS16_packS16 pre post hl hu

/-! ### Arrays (44 R192, R195) -/

/-- A packed array of values in range is read back wherever it stands. -/
theorem array16_pack16 {r : Reading} {vs : List Int} (h : ∀ v ∈ vs, inRange16 r v = true) (pre post : List Byte) :
    array16 r (pre ++ vs.flatMap (pack16 r) ++ post) pre.length vs.length = vs :=
  have hread := map_read_flatMap (val := id) (length_pack16 r) (fun v hv => unpack16_pack16 (h v hv)) pre post
  hread.trans (List.map_id vs)

/-- A packed u16 array is read back wherever it stands. -/
theorem u16Array_packU16 (vs : List Word16) (pre post : List Byte) :
    u16Array (pre ++ vs.flatMap packU16 ++ post) pre.length vs.length = vs.map BitVec.toNat :=
  map_read_flatMap length_packU16 (fun v _ pre post => unpackU16_packU16 pre post v) pre post

/-! ### All motors (44 R189 to R192) -/

theorem exec_packAllSet {r : Reading} {motors : List (Int × Byte)} (s : State)
    (h : ∀ m ∈ motors, inRange16 r m.1 = true) :
    exec (.packAllSet r motors) s = .next (s.giving (.ok (.bytes (packAllSet r motors)))) :=
  whenDefined_eq_next.2 ⟨List.all_eq_true.2 h, rfl⟩

theorem length_motorRecord (r : Reading) (m : Int × Byte) : (pack16 r m.1 ++ packU8 m.2).length = 3 := by
  simp [packU8]

theorem length_packAllSet (r : Reading) (motors : List (Int × Byte)) :
    (packAllSet r motors).length = 3 * motors.length :=
  length_flatMap_of_width (length_motorRecord r) motors

section MotorRecord

variable {r : Reading} {motors : List (Int × Byte)} {k : Nat}

theorem unpack16_packAllSet (hk : k < motors.length) (h : inRange16 r motors[k].1 = true) :
    unpack16 r (packAllSet r motors) (3 * k) = motors[k].1 := by
  have hvalue (pre post : List Byte) :
      unpack16 r (pre ++ (pack16 r motors[k].1 ++ packU8 motors[k].2) ++ post) pre.length = motors[k].1 := by
    simpa using unpack16_pack16 h pre (packU8 motors[k].2 ++ post)
  simpa [packAllSet] using read_flatMap (length_motorRecord r) hk hvalue [] []

theorem packAllSet_getElem?_speed (hk : k < motors.length) :
    (packAllSet r motors)[3 * k + 2]? = some motors[k].2 := by
  have hspeed (pre post : List Byte) :
      (pre ++ (pack16 r motors[k].1 ++ packU8 motors[k].2) ++ post)[pre.length + 2]? = some motors[k].2 := by
    simp [packU8]
  simpa [packAllSet] using
    read_flatMap (read := fun bs a => bs[a + 2]?) (length_motorRecord r) hk hspeed [] []

end MotorRecord

/-- An all-motors response of `n` motors within the capacity is read in full (44 R190 to R192). -/
theorem unpackAllGet_of_length (r : Reading) {p : List Byte} {n cap : Nat} (hp : p.length = 4 * n) (hcap : n ≤ cap) :
    unpackAllGet r p cap = .ok (.allGet n (array16 r p 0 n) (array16 r p (2 * n) n)) := by
  have hn : 4 * n / 4 = n := by omega
  have hrem : 4 * n % 4 = 0 := by omega
  simp [unpackAllGet, hp, hn, hrem, Nat.not_lt.2 hcap]

/-! ### Calibration (44 R193 to R195) -/

/-- A calibration response as long as its two counts say, both within the capacities, is read in full
(44 R193 to R195). -/
theorem unpackCali_of_length {mc tc : Byte} {body : List Byte} {capM capT : Nat}
    (hbody : body.length = 4 * mc.toNat + 2 * tc.toNat) (hM : mc.toNat ≤ capM) (hT : tc.toNat ≤ capT) :
    unpackCali ([mc, tc] ++ body) capM capT = .ok (.cali mc.toNat tc.toNat
      (u16Array ([mc, tc] ++ body) 2 mc.toNat) (u16Array ([mc, tc] ++ body) (2 + 2 * mc.toNat) mc.toNat)
      (u16Array ([mc, tc] ++ body) (2 + 4 * mc.toNat) tc.toNat)) := by
  have hmc : unpackU8 ([mc, tc] ++ body) 0 = mc.toNat := rfl
  have htc : unpackU8 ([mc, tc] ++ body) 1 = tc.toNat := rfl
  have hlen : ([mc, tc] ++ body).length = 2 + 4 * mc.toNat + 2 * tc.toNat := by
    rw [List.length_append, hbody]
    exact (Nat.add_assoc 2 _ _).symm
  have hheader : ¬ 2 + 4 * mc.toNat + 2 * tc.toNat < 2 := by omega
  have hcap : ¬ (capM < mc.toNat ∨ capT < tc.toNat) := by omega
  rw [unpackCali, hmc, htc, hlen, if_neg hheader, if_neg hcap, if_neg (not_not_intro rfl)]

/-! ### SEND of a payload too large (42 R153) -/

theorem State.sendError_eq_payloadTooLarge {s : State} {p : List Byte} (hctx : s.ctxValid = true)
    (htimer : s.timerOk = true) (h63 : maxTxLen < p.length) : s.sendError p = some .payloadTooLarge := by
  simp [State.sendError, hctx, htimer, h63]

/-- SEND that fails one of its tests answers that error and hands nothing over (42 R150). -/
theorem execSend_of_sendError_eq_some {s : State} {p : List Byte} {e : Err} (target c : Byte)
    (h : s.sendError p = some e) : execSend target c p s = .next (s.setResult (some (.err e))) := by
  rw [execSend, transmit, h]
  rfl

/-! ### The statements -/

/-- Settles O50: the records are three bytes wide, the value in front and the speed behind it; 22 of them are 66 bytes,
more than the 63 that SEND takes. -/
theorem allMotorsSetInterleavesValuesAndSpeeds : Obligations.AllMotorsSetInterleavesValuesAndSpeeds := by
  intro s r motors hrange
  refine ⟨packAllSet r motors, exec_packAllSet s hrange, length_packAllSet r motors, fun k hk => ?fields,
    fun h21 hctx htimer target c => ?send⟩
  case fields =>
    exact ⟨unpack16_packAllSet hk (hrange _ (List.getElem_mem hk)), packAllSet_getElem?_speed hk⟩
  case send =>
    have h63 : maxTxLen < (packAllSet r motors).length := by
      rw [length_packAllSet, maxTxLen]
      omega
    exact execSend_of_sendError_eq_some target c (State.sendError_eq_payloadTooLarge hctx htimer h63)

/-- Settles O51: the target block stands in front, the current block two bytes per motor further on. -/
theorem allMotorsGetReadsTwoBlocks : Obligations.AllMotorsGetReadsTwoBlocks := by
  intro s r target current cap hsame hcap hrange
  obtain ⟨hrangeT, hrangeC⟩ := List.forall_mem_append.1 hrange
  have hlenT := length_flatMap_of_width (length_pack16 r) target
  have hlen : ((target ++ current).flatMap (pack16 r)).length = 4 * target.length := by
    rw [length_flatMap_of_width (length_pack16 r), List.length_append]
    omega
  have hreadTarget : array16 r ((target ++ current).flatMap (pack16 r)) 0 target.length = target := by
    simpa using array16_pack16 hrangeT [] (current.flatMap (pack16 r))
  have hreadCurrent : array16 r ((target ++ current).flatMap (pack16 r)) (2 * target.length) target.length =
      current := by
    simpa [hlenT, hsame] using array16_pack16 hrangeC (target.flatMap (pack16 r)) []
  calc exec (.unpackAllGet r ((target ++ current).flatMap (pack16 r)) cap) s
    _ = endWith (unpackAllGet r ((target ++ current).flatMap (pack16 r)) cap) s := rfl
    _ = .next (s.giving (.ok (.allGet target.length target current))) := by
      rw [unpackAllGet_of_length r hlen hcap, hreadTarget, hreadCurrent, endWith_eq]
      rfl

/-- Settles O52: each array stands right behind the two counts and the arrays before it. -/
theorem calibrationResponseReadsItsThreeArrays : Obligations.CalibrationResponseReadsItsThreeArrays := by
  intro s mc tc ends starts thumbs capM capT hends hstarts hthumbs hM hT
  have hlen (vs : List Word16) := length_flatMap_of_width length_packU16 vs
  have hbody : ((ends ++ starts ++ thumbs).flatMap packU16).length = 4 * mc.toNat + 2 * tc.toNat := by
    rw [hlen, List.length_append, List.length_append]
    omega
  have hreadEnds : u16Array ([mc, tc] ++ (ends ++ starts ++ thumbs).flatMap packU16) 2 mc.toNat =
      ends.map BitVec.toNat := by
    simpa [hends] using u16Array_packU16 ends [mc, tc] (starts.flatMap packU16 ++ thumbs.flatMap packU16)
  have hreadStarts : u16Array ([mc, tc] ++ (ends ++ starts ++ thumbs).flatMap packU16) (2 + 2 * mc.toNat) mc.toNat =
      starts.map BitVec.toNat := by
    have hoff : ([mc, tc] ++ ends.flatMap packU16).length = 2 + 2 * mc.toNat := by
      rw [List.length_append, hlen, hends]
      rfl
    rw [← hoff]
    simpa [hstarts] using
      u16Array_packU16 starts ([mc, tc] ++ ends.flatMap packU16) (thumbs.flatMap packU16)
  have hreadThumbs : u16Array ([mc, tc] ++ (ends ++ starts ++ thumbs).flatMap packU16) (2 + 4 * mc.toNat) tc.toNat =
      thumbs.map BitVec.toNat := by
    have hoff : ([mc, tc] ++ (ends ++ starts).flatMap packU16).length = 2 + 4 * mc.toNat := by
      rw [List.length_append, hlen, List.length_append, hends, hstarts, List.length_cons, List.length_singleton]
      omega
    rw [← hoff]
    simpa [hthumbs] using
      u16Array_packU16 thumbs ([mc, tc] ++ (ends ++ starts).flatMap packU16) []
  calc exec (.unpackCali ([mc, tc] ++ (ends ++ starts ++ thumbs).flatMap packU16) capM capT) s
    _ = endWith (unpackCali ([mc, tc] ++ (ends ++ starts ++ thumbs).flatMap packU16) capM capT) s := rfl
    _ = .next (s.giving (.ok (.cali mc.toNat tc.toNat (ends.map BitVec.toNat) (starts.map BitVec.toNat)
        (thumbs.map BitVec.toNat)))) := by
      rw [unpackCali_of_length hbody hM hT, hreadEnds, hreadStarts, hreadThumbs, endWith_eq]
      rfl

end Sys2Proof.Machine
end

section
/-! PROOF. Sequences of bytes at the decoder: how they may be cut, what a ready frame does to them, how a header is
searched for (40 R101 to R103, R116), and the length and checksum bytes (40 R107, R111, R112). -/

namespace Sys2Proof.Machine

/-! ### Bytes behind a ready frame (40 R101) -/

theorem feed_of_ready {s : State} (bs : List Byte) (h : s.ready = true) : feed bs s = .next s := by
  induction bs with
  | nil => rfl
  | cons b bs ih => rw [feed, receive_ready h, andThen_next, ih]

/-- No byte takes a ready frame away, so where none is ready in the end none was ready before. -/
theorem not_ready_of_feed {bs : List Byte} {s t : State} (hf : feed bs s = .next t) (ht : t.ready = false) :
    s.ready = false := by
  cases hs : s.ready with
  | false => rfl
  | true =>
    cases (feed_of_ready bs hs).symm.trans hf
    exact hs.symm.trans ht

/-! ### The header search (40 R102, R103) -/

theorem State.setPhase_of_phase_eq {s : State} {p : Phase} (h : s.phase = p) : s.setPhase p = s := by
  subst h
  rfl

section Search

variable {s : State} (hr : s.ready = false) (hp : s.phase = .awaitHeader0)
include hr hp

theorem feed_of_no_header0 {bs : List Byte} (h : ∀ b ∈ bs, b ≠ header0) : feed bs s = .next s := by
  induction bs with
  | nil => rfl
  | cons b bs ih =>
    obtain ⟨hb, hbs⟩ := List.forall_mem_cons.1 h
    rw [feed, receive_not_header0 hr hp hb, andThen_next, ih hbs]

/-- Two bytes HEADER0 bring the search back to where it was: the second is not looked at again (90 C1; log 23). -/
theorem feed_header0_header0 (bs : List Byte) : feed (header0 :: header0 :: bs) s = feed bs s := by
  rw [feed, receive_header0 hr hp, andThen_next, feed, receive_not_header1 (by exact hr) rfl (by decide), andThen_next]
  exact congrArg (feed bs) (State.setPhase_of_phase_eq hp)

theorem feed_header0_pairs (n : Nat) (bs : List Byte) :
    feed (List.replicate (2 * n) header0 ++ bs) s = feed bs s := by
  induction n with
  | zero => rfl
  | succ n ih => exact (feed_header0_header0 hr hp _).trans ih

theorem feed_header0_header1 (bs : List Byte) :
    feed (header0 :: header1 :: bs) s = feed bs (s.setPhase .awaitDestAddr) := by
  rw [feed, receive_header0 hr hp, andThen_next, feed, receive_header1 (by exact hr) rfl, andThen_next]
  rfl

end Search

/-! ### The statements -/

/-- Settles O18: FEED is a fold over the bytes (`feed_append`). -/
theorem feedingIsIndependentOfFragmentation : Obligations.FeedingIsIndependentOfFragmentation :=
  fun s xs ys => feed_append xs ys s

/-- Settles O19, by induction on the bytes (`feed_of_ready`). -/
theorem readyFrameOutlastsEveryLaterByte : Obligations.ReadyFrameOutlastsEveryLaterByte :=
  fun _ bs h => feed_of_ready bs h

/-- Settles O20, by induction on the bytes (`feed_of_no_header0`). -/
theorem bytesBeforeAHeaderAreSkipped : Obligations.BytesBeforeAHeaderAreSkipped :=
  fun _ _ hr hp h => feed_of_no_header0 hr hp h

/-- Settles O21: the pairs are lost, so 0xAA meets a searching decoder, or a decoder that has just seen one 0x55. -/
theorem doubledHeaderByteLosesTheFrame : Obligations.DoubledHeaderByteLosesTheFrame := by
  intro s n bs hr hp
  refine ⟨?even, ?odd⟩
  case even =>
    refine (feed_header0_pairs hr hp n _).trans ?_
    rw [feed, receive_not_header0 hr hp (by decide), andThen_next]
  case odd =>
    rw [List.replicate_succ', List.append_assoc]
    exact (feed_header0_pairs hr hp n _).trans (feed_header0_header1 hr hp bs)

/-- Settles O13: each of the three rows in the byte's range that selects it. -/
theorem lengthByteOpensOrAbandonsTheFrame : Obligations.LengthByteOpensOrAbandonsTheFrame := by
  intro s b hr hp
  have hphase : s.awaits .awaitLength = true := State.awaits_iff.2 ⟨hr, hp⟩
  refine ⟨whenSelected_eq_next.2 ⟨hphase, rfl⟩, fun h1 h64 => ?opens, fun h64 => ?abandons⟩
  case opens =>
    have hleft : b.toNat - 1 < 64 := by omega
    refine ⟨Fin.ofNat maxRxLen (b.toNat - 1), ?_, whenSelected_eq_next.2 ⟨?_, rfl⟩⟩
    · rw [Fin.val_ofNat, Nat.mod_eq_of_lt hleft, Nat.sub_add_cancel h1]
    · exact Bool.and_eq_true_iff.2 ⟨hphase, decide_eq_true ⟨h1, h64⟩⟩
  case abandons => exact whenSelected_eq_next.2 ⟨Bool.and_eq_true_iff.2 ⟨hphase, decide_eq_true h64⟩, rfl⟩

/-- Settles O15: the two rows differ in whether the destination is the master. -/
theorem checksumByteAcceptsOrDropsTheFrame : Obligations.ChecksumByteAcceptsOrDropsTheFrame := by
  intro s b hr hp
  have hphase : s.awaits .awaitChecksum = true := State.awaits_iff.2 ⟨hr, hp⟩
  exact ⟨fun hd => whenSelected_eq_next.2 ⟨Bool.and_eq_true_iff.2 ⟨hphase, decide_eq_true hd⟩, rfl⟩,
    fun hd => whenSelected_eq_next.2 ⟨Bool.and_eq_true_iff.2 ⟨hphase, decide_eq_true hd⟩, rfl⟩⟩

end Sys2Proof.Machine
end

section
/-! PROOF. What CHECK does whatever the frame holds, which results two of its operands exclude, and that one changed
byte is reported (41 R131, R133 (c), R135, R136, R139 to R141). -/

namespace Sys2Proof.Machine

/-! ### The command byte and its error flag (10 R33, 41 R136) -/

/-- The error flag is the top bit of the command byte. -/
theorem errFlag_eq (c : Byte) : errFlag c = decide (0x7F < c.toNat) :=
  BitVec.msb_eq_decide c

theorem toNat_and_cmdMask (c : Byte) : (c &&& cmdMask).toNat = c.toNat % 128 := by
  rw [BitVec.toNat_and]
  exact Nat.and_two_pow_sub_one_eq_mod c.toNat 7

/-- A command byte without the error flag is its own operation code. -/
theorem and_cmdMask_of_le {c : Byte} (h : c.toNat ≤ 0x7F) : c &&& cmdMask = c := by
  apply BitVec.eq_of_toNat_eq
  rw [toNat_and_cmdMask]
  omega

/-! ### CHECK, whatever its result (41 R131, R139) -/

theorem execCheck_of_not_ready {target expCmd : Byte} {cap : Nat} {s : State} (h : s.ready = false) :
    execCheck target expCmd cap s = .refused .checkNotReady := by
  simp [execCheck, h]

/-- A CHECK that completes ends with its verdict on the captured payload. -/
theorem execCheck_result {target expCmd : Byte} {cap : Nat} {s t : State}
    (h : execCheck target expCmd cap s = .next t) :
    ∃ p, s.payload = some p ∧ t.result = some (s.verdict target expCmd cap p) := by
  unfold execCheck at h
  split at h
  · obtain ⟨p, hp, rfl⟩ := checkFrame_eq_next.1 h
    exact ⟨p, hp, rfl⟩
  · cases h

/-- The wildcard target passes the test of the source address (41 R135 (a)). -/
theorem State.verdict_broadcast_ne_unmatchedAddress (s : State) (expCmd : Byte) (cap : Nat) (p : List Byte) :
    s.verdict broadcast expCmd cap p ≠ .err .unmatchedAddress := by
  unfold State.verdict
  split_ifs <;> simp_all

/-- An expected command above 0x7F is no operation code (41 R136 (b)). -/
theorem State.verdict_ne_ok {s : State} {target expCmd : Byte} {cap : Nat} {p : List Byte} (h : 0x7F < expCmd.toNat)
    (v : Value) : s.verdict target expCmd cap p ≠ .ok v := by
  have hcmd : s.cmd &&& cmdMask ≠ expCmd := by
    rintro rfl
    rw [toNat_and_cmdMask] at h
    omega
  unfold State.verdict
  split_ifs <;> simp

/-! ### The checksum and single bytes (30 R71, 41 R141) -/

theorem xorBytes_cons (b : Byte) (bs : List Byte) : xorBytes (b :: bs) = b ^^^ xorBytes bs := rfl

/-- Changing one byte of a sequence changes its exclusive or. -/
theorem xorBytes_set_ne {p : List Byte} {j : Nat} {v : Byte} (h : j < p.length) (hv : v ≠ p[j]) :
    xorBytes (p.set j v) ≠ xorBytes p := by
  induction p generalizing j with
  | nil => cases h
  | cons b p ih =>
    cases j with
    | zero =>
      rw [List.set_cons_zero, xorBytes_cons, xorBytes_cons]
      exact fun h' => hv ((BitVec.xor_left_inj _).1 h')
    | succ j =>
      rw [List.set_cons_succ, xorBytes_cons, xorBytes_cons]
      exact fun h' => ih (Nat.lt_of_succ_lt_succ h) hv ((BitVec.xor_right_inj _).1 h')

/-- A frame for the master whose checksum byte is not the exclusive or of its other bytes is captured, and CHECK answers
BadChecksum to any operands (41 R132, R141). -/
theorem badChecksum_of_lrc_ne {s : State} {src c k : Byte} {p : List Byte} (target expCmd : Byte) (cap : Nat)
    (hr : s.ready = false) (hp : s.phase = .awaitHeader0) (h64 : p.length ≤ maxRxLen)
    (hk : lrc s.masterAddr src c (BitVec.ofNat 8 p.length) p ≠ k) :
    ∃ t u, feed (frameBytes s.masterAddr src c p k) s = .next t ∧ exec (.check target expCmd cap) t = .next u ∧
      u.result = some (.err .badChecksum) :=
  ⟨_, _, feed_frameBytes s.masterAddr src c k hr hp h64,
    execCheck_eq (decide_eq_true rfl) (captured_payload s.masterAddr src c k s h64),
    congrArg some (State.verdict_of_spanLrc_ne hk)⟩

/-! ### The statements -/

/-- Settles O28: a completing CHECK writes the ready flag, the result and the draws (`execCheck_eq_next`), so the next
one finds no frame. -/
theorem checkConsumesTheFrameWhateverTheResult : Obligations.CheckConsumesTheFrameWhateverTheResult := by
  intro s target e cap
  refine ⟨execCheck_of_not_ready, fun u hu => ?_⟩
  obtain ⟨p, -, hres⟩ := execCheck_result hu
  obtain ⟨r, rfl⟩ := execCheck_eq_next hu
  exact ⟨rfl, fun h => Option.some_ne_none _ (hres.symm.trans h), fun _ _ _ => execCheck_of_not_ready rfl⟩

/-- Settles O30: CHECK's result is its verdict, which each of the two operands keeps from one value. -/
theorem checkWildcardAndCommandCorners : Obligations.CheckWildcardAndCommandCorners := by
  intro s u target e cap hu
  obtain ⟨p, -, hres⟩ := execCheck_result hu
  rw [hres]
  refine ⟨?_, fun he v h => State.verdict_ne_ok he v (Option.some.inj h)⟩
  rintro rfl h
  exact s.verdict_broadcast_ne_unmatchedAddress e cap p (Option.some.inj h)

/-- Settles O27: the remote code of so short a payload is the free byte of the draw. -/
theorem checkOfAShortErrorFrameReportsAFreeCode : Obligations.CheckOfAShortErrorFrameReportsAFreeCode := by
  intro s target e cap p hr hp hsum herr hlen
  have hcode : s.remoteCode p = Config.freeByte s.draws := by
    match p, hlen with
    | [], _ => rfl
    | [_], _ => rfl
  exact ⟨_, execCheck_eq hr hp, congrArg some ((State.verdict_of_errFlag hsum herr).trans (by rw [hcode]))⟩

/-- Settles O24: in each of the four cases the checksum that CHECK recomputes differs from the byte received. -/
theorem singleByteCorruptionIsReported : Obligations.SingleByteCorruptionIsReported := by
  intro s src c p target e cap h63 hr hp good reports
  have h64 : p.length ≤ maxRxLen := Nat.le_succ_of_le h63
  refine ⟨fun j v hj hv => ?payload, fun src' hsrc => ?source, fun c' hc => ?command, fun k hk => ?checksum⟩
  case payload =>
    refine badChecksum_of_lrc_ne target e cap hr hp (by rwa [List.length_set]) ?_
    rw [List.length_set]
    exact fun h => xorBytes_set_ne hj hv ((BitVec.xor_right_inj _).1 h)
  case source =>
    refine badChecksum_of_lrc_ne target e cap hr hp h64 fun h => hsrc ?_
    simpa only [good, lrc, BitVec.xor_left_inj, BitVec.xor_right_inj] using h
  case command =>
    refine badChecksum_of_lrc_ne target e cap hr hp h64 fun h => hc ?_
    simpa only [good, lrc, BitVec.xor_left_inj, BitVec.xor_right_inj] using h
  case checksum => exact badChecksum_of_lrc_ne target e cap hr hp h64 hk.symm

end Sys2Proof.Machine
end

section
/-! PROOF. SEND's other two tests, its answer, and what it reads (42 R150, R152, R156). -/

namespace Sys2Proof.Machine

theorem State.sendError_eq_invalidContext {s : State} (p : List Byte) (h : s.ctxValid = false) :
    s.sendError p = some .invalidContext := by
  simp [State.sendError, h]

theorem State.sendError_eq_timerNotConfigured {s : State} (p : List Byte) (hctx : s.ctxValid = true)
    (h : s.timerOk = false) : s.sendError p = some .timerNotConfigured := by
  simp [State.sendError, hctx, h]

/-- A payload that passes SEND's tests has at most 63 bytes (42 R152). -/
theorem State.length_le_of_sendError_eq_none {s : State} {p : List Byte} (h : s.sendError p = none) :
    p.length ≤ maxTxLen := by
  by_contra hlen
  unfold State.sendError at h
  split_ifs at h
  omega

theorem length_encodeFrame (d src c : Byte) (p : List Byte) : (encodeFrame d src c p).length = 7 + p.length := by
  simp [encodeFrame, frameBytes]
  omega

/-- SEND's tests read the context and the timer, not the decoder (42 R156). -/
theorem DecoderOnly.sendError {s t : State} (h : DecoderOnly s t) (p : List Byte) : t.sendError p = s.sendError p := by
  rw [h]
  rfl

theorem DecoderOnly.transportAnswer {s t : State} (h : DecoderOnly s t) : t.transportAnswer = s.transportAnswer := by
  rw [h]
  rfl

/-! ### The statements -/

/-- Settles O31: the first test that fails is the result, and with none the frame of `encodeFrame_eq` is handed over. -/
theorem sendReportsTheFirstFailureOrHandsOverTheFrame : Obligations.SendReportsTheFirstFailureOrHandsOverTheFrame := by
  intro s target c p
  refine ⟨fun hctx => ?context, fun hctx htimer => ?timer, fun hctx htimer h63 => ?size,
    fun hctx htimer h63 a as has => ?sent⟩
  case context => exact execSend_of_sendError_eq_some target c (State.sendError_eq_invalidContext p hctx)
  case timer => exact execSend_of_sendError_eq_some target c (State.sendError_eq_timerNotConfigured p hctx htimer)
  case size => exact execSend_of_sendError_eq_some target c (State.sendError_eq_payloadTooLarge hctx htimer h63)
  case sent =>
    have hanswer : s.transportAnswer = a := by rw [State.transportAnswer, has]
    refine ⟨_, execSend_of_sendError_eq_none target c (State.sendError_eq_none hctx htimer h63), ?_⟩
    simp only [← encodeFrame_eq, State.handOver, State.setResult, hanswer, has, List.tail_cons]

/-- Settles O32: the tests, the transport's answer and MASTER_ADDR are all that SEND reads, and no decoder register is
among them. -/
theorem sendLeavesTheDecoderAlone : Obligations.SendLeavesTheDecoderAlone := by
  intro s u target c p hu
  cases he : s.sendError p with
  | some e =>
    cases (execSend_of_sendError_eq_some target c he).symm.trans hu
    refine ⟨rfl, .inl rfl, fun s' hs' => ⟨_, execSend_of_sendError_eq_some target c ((hs'.sendError p).trans he), ?_⟩⟩
    rw [hs']
    exact ⟨rfl, rfl, rfl, rfl⟩
  | none =>
    cases (execSend_of_sendError_eq_none target c he).symm.trans hu
    refine ⟨rfl, .inr ⟨_, _, rfl, length_encodeFrame .., State.length_le_of_sendError_eq_none he⟩,
      fun s' hs' => ⟨_, execSend_of_sendError_eq_none target c ((hs'.sendError p).trans he), ?_⟩⟩
    rw [hs'.transportAnswer, hs']
    exact ⟨rfl, rfl, rfl, rfl⟩

end Sys2Proof.Machine
end

section
/-! PROOF. The wait loop, poll by poll (45 R221 to R227), how a wait ends (45 R233), and the typed operation as SEND,
AWAIT and unpack (45 R230). -/

namespace Sys2Proof.Machine

/-! ### What the bytes leave to the loop (60 R250) -/

theorem DecoderOnly.wait {s t : State} (h : DecoderOnly s t) : t.wait = s.wait := by rw [h]

theorem DecoderOnly.nowMs {s t : State} (h : DecoderOnly s t) : t.nowMs = s.nowMs := by rw [h]

/-- In every state of the invariant all bytes are taken (40 R100). -/
theorem exists_feed_eq_next {s : State} (bs : List Byte) (hs : s.Inv) : ∃ t, feed bs s = .next t := by
  induction bs generalizing s with
  | nil => exact ⟨s, rfl⟩
  | cons b bs ih =>
    obtain ⟨u, hu⟩ := exists_receive_eq_next b hs
    obtain ⟨t, ht⟩ := ih ((runTransition_keeps hu).inv hs)
    exact ⟨t, andThen_eq_next.2 ⟨u, hu, ht⟩⟩

/-- A captured payload is read from every state with the same stored bytes, construction count and `len`. -/
theorem State.payload_of_same {s t : State} {p : List Byte} (h : s.payload = some p) (hp : t.pay = s.pay)
    (hb : t.built = s.built) (hl : t.len = s.len) : t.payload = some p :=
  (State.payload_congr hp hb hl).trans h

/-- The state in which the loop of a call begins (45 R221). -/
def State.entering (w : Wait) (s : State) : State := (s.setWait (some w)).setResult none

/-- Bytes do the same inside a call as outside. -/
theorem feed_entering {bs : List Byte} {s t : State} (w : Wait) (h : feed bs s = .next t) :
    feed bs (s.entering w) = .next (t.entering w) := by
  have hd : t = _ := feed_decoderOnly h
  rw [show s.entering w = s.inCall (some w) none s.nowMs s.script from rfl, feed_inCall, h, andThen_next, hd]
  rfl

theorem enterWait_of_ready {s : State} (w : Wait) (h : s.ready = true) : enterWait w s = conclude w (s.entering w) :=
  if_pos h

theorem enterWait_of_not_ready {s : State} (w : Wait) (h : s.ready = false) :
    enterWait w s = awaitLines s.script (s.entering w) :=
  if_neg (Bool.eq_false_iff.1 h)

/-! ### One iteration (45 R223 to R227) -/

section Iteration

variable {w : Wait} {bs : List Byte} {d : Deadline} {keep : Bool} {s t : State}

/-- An iteration by what its bytes made ready and what the deadline test found. -/
theorem iterate_eq (hf : feed bs s = .next t) :
    iterate w bs d keep s =
      if w.expired d s.nowMs then
        if t.ready && keep then conclude w (t.setNow (d.reading s.nowMs)) else expire (t.setNow (d.reading s.nowMs))
      else if t.ready then conclude w (t.setNow (d.reading s.nowMs))
      else .next (t.setNow (d.reading s.nowMs)) := by
  rw [iterate, hf, andThen_next, (feed_decoderOnly hf).nowMs]
  rfl

theorem iterate_of_expired (hf : feed bs s = .next t) (he : w.expired d s.nowMs = true)
    (hk : (t.ready && keep) = false) : iterate w bs d keep s = expire (t.setNow (d.reading s.nowMs)) := by
  rw [iterate_eq hf, if_pos he, if_neg (Bool.eq_false_iff.1 hk)]

theorem iterate_of_ready (hf : feed bs s = .next t) (hr : t.ready = true)
    (he : w.expired d s.nowMs = false ∨ keep = true) :
    iterate w bs d keep s = conclude w (t.setNow (d.reading s.nowMs)) := by
  rw [iterate_eq hf, hr]
  obtain he | rfl := he
  · rw [if_neg (Bool.eq_false_iff.1 he), if_pos rfl]
  · split <;> rfl

/-- An iteration ends the call or leaves it in progress as it was. -/
theorem iterate_wait (h : iterate w bs d keep s = .next t) : t.wait = none ∨ t.wait = s.wait := by
  obtain ⟨u, n, hu, ht | ht | ⟨-, rfl⟩⟩ := iterate_cases h
  · obtain ⟨p, -, rfl⟩ := conclude_eq_next.1 ht
    exact .inl rfl
  · rw [expire_eq_next.1 ht]
    exact .inl rfl
  · exact .inr (feed_decoderOnly hu).wait

theorem awaitLines_poll (hw : s.wait = some w) (rest : List Line) :
    awaitLines (.poll bs d keep :: rest) s = andThen (iterate w bs d keep s) (awaitLines rest) := by
  simp only [awaitLines, hw]

/-- A poll whose iteration ends the call is the last line the loop runs over. -/
theorem awaitLines_poll_of_ends (hw : s.wait = some w) (rest : List Line) (hi : iterate w bs d keep s = .next t)
    (ht : t.wait = none) : awaitLines (.poll bs d keep :: rest) s = .next (t.setScript rest) := by
  rw [awaitLines_poll hw, hi, andThen_next, awaitLines_of_wait_none rest ht]

/-- A poll that finds the deadline ends the call with Timeout and the decoder reset (45 R225). -/
theorem awaitLines_poll_of_expired (hw : s.wait = some w) (rest : List Line) (hf : feed bs s = .next t)
    (he : w.expired d s.nowMs = true) (hk : (t.ready && keep) = false) :
    awaitLines (.poll bs d keep :: rest) s =
      .next ((((t.setNow (d.reading s.nowMs)).decoderReset.setWait none).setResult
        (some (.err .timeout))).setScript rest) :=
  awaitLines_poll_of_ends hw rest (iterate_of_expired hf he hk) rfl

/-- A poll with a ready frame ends the call with CHECK's result (45 R226). -/
theorem awaitLines_poll_of_ready {p : List Byte} (hw : s.wait = some w) (rest : List Line)
    (hf : feed bs s = .next t) (hr : t.ready = true) (he : w.expired d s.nowMs = false ∨ keep = true)
    (hp : t.payload = some p) :
    awaitLines (.poll bs d keep :: rest) s =
      .next ((((((t.setNow (d.reading s.nowMs)).setReady false).setDraws (t.draws + 1)).setResult
        (some (w.deliver (t.verdict w.target w.expCmd w.cap p)))).setWait none).setScript rest) :=
  awaitLines_poll_of_ends hw rest
    ((iterate_of_ready hf hr he).trans (conclude_eq (State.payload_of_same hp rfl rfl rfl))) rfl

end Iteration

/-! ### A step of a wait held in the state (log 8) -/

theorem step_poll {w : Wait} {bs : List Byte} {d : Deadline} {keep : Bool} {rest : List Line} {s : State}
    (hs : s.script = .poll bs d keep :: rest) (hw : s.wait = some w) :
    step s = awaitLines (.poll bs d keep :: rest) s := by
  simp only [step, hs, runLine, State.setScript_wait, hw, Option.isSome_some, if_true, State.setScript_script,
    awaitLines_setScript]

theorem step_abort {rest : List Line} {s : State} (hs : s.script = .abort :: rest) (hw : s.wait.isSome = true) :
    step s = .next (((s.setScript rest).setWait none).setResult none) := by
  simp only [step, hs, runLine, State.setScript_wait, hw, if_true, abandon]

/-- The loop of a call in progress is its steps: it runs over a line that answers it as the next step would. -/
theorem awaitLines_eq_step {s : State} (rest : List Line) (hw : s.wait.isSome = true) :
    awaitLines rest s =
      if rest.head?.any answersWait then step (s.setScript rest) else .next (s.setScript rest) := by
  split
  case isFalse h => exact awaitLines_of_no_answer s (Bool.eq_false_iff.2 h)
  case isTrue h =>
    obtain ⟨w, hw'⟩ := Option.isSome_iff_exists.1 hw
    cases rest with
    | nil => cases h
    | cons x rest =>
      cases x with
      | poll bs d keep => rw [step_poll rfl (by exact hw'), awaitLines_setScript]
      | abort =>
        rw [step_abort rfl (by exact hw)]
        simp only [awaitLines, hw']
        rfl
      | rxb | call => cases h

/-! ### Polls in time (45 R223, R224) -/

theorem pollLines_append (polls : Polls) (bs : List Byte) (d : Deadline) (keep : Bool) (rest : List Line) :
    pollLines (polls ++ [(bs, d, keep)]) ++ rest = pollLines polls ++ .poll bs d keep :: rest := by
  simp [pollLines]

theorem pollBytes_append (polls polls' : Polls) : pollBytes (polls ++ polls') = pollBytes polls ++ pollBytes polls' :=
  List.flatMap_append

theorem readingAfter_append (now : Nat) (polls polls' : Polls) :
    readingAfter now (polls ++ polls') = readingAfter (readingAfter now polls) polls' :=
  List.foldl_append

theorem inTime_append (w : Wait) (now : Nat) (polls polls' : Polls) :
    inTime w now (polls ++ polls') = (inTime w now polls && inTime w (readingAfter now polls) polls') := by
  induction polls generalizing now with
  | nil => rfl
  | cons q polls ih =>
    simp only [List.cons_append, inTime, ih, Bool.and_assoc]
    rfl

/-- The loop runs over polls in time that complete no frame: the decoder takes their bytes, and the timer moves on. -/
theorem awaitLines_pollLines {w : Wait} {polls : Polls} {s u : State} (l : List Line) (hw : s.wait = some w)
    (ht : inTime w s.nowMs polls = true) (hf : feed (pollBytes polls) s = .next u) (hu : u.ready = false) :
    awaitLines (pollLines polls ++ l) s = awaitLines l (u.setNow (readingAfter s.nowMs polls)) := by
  induction polls generalizing s u with
  | nil =>
    cases hf
    rfl
  | cons q polls ih =>
    obtain ⟨bs, d, keep⟩ := q
    obtain ⟨t, hbs, hrest⟩ := andThen_eq_next.1 ((feed_append bs (pollBytes polls) s).symm.trans hf)
    simp only [inTime, Bool.and_eq_true, Bool.not_eq_true'] at ht
    obtain ⟨hd, ht⟩ := ht
    have hnext : iterate w bs d keep s = .next (t.setNow (d.reading s.nowMs)) :=
      iterate_of_neither keep hbs (not_ready_of_feed hrest hu) hd
    refine (awaitLines_poll hw _).trans ?_
    rw [hnext, andThen_next]
    exact ih (u := u.setNow (d.reading s.nowMs)) ((feed_decoderOnly hbs).wait.trans hw) ht (feed_setNow _ hrest) hu

/-- A call whose polls are in time and complete no frame comes to the line behind them. -/
theorem enterWait_pollLines {w : Wait} {polls : Polls} {l : List Line} {s u : State} (hr : s.ready = false)
    (hs : s.script = pollLines polls ++ l) (ht : inTime w s.nowMs polls = true)
    (hf : feed (pollBytes polls) s = .next u) (hu : u.ready = false) :
    enterWait w s = awaitLines l ((u.entering w).setNow (readingAfter s.nowMs polls)) := by
  rw [enterWait_of_not_ready w hr, hs]
  exact awaitLines_pollLines l rfl ht (feed_entering w hf) hu

/-! ### A good response (45 R220 to R226) -/

/-- A frame becomes ready at its last byte and not before (10 R26, 40 R111). -/
theorem not_ready_before_last_byte {s u : State} {d src c k : Byte} {p xs ys : List Byte} (hr : s.ready = false)
    (hp : s.phase = .awaitHeader0) (h64 : p.length ≤ maxRxLen) (hbytes : xs ++ ys = frameBytes d src c p k)
    (hys : ys ≠ []) (hu : feed xs s = .next u) : u.ready = false := by
  have hframe : frameBytes d src c p k = [header0, header1, d, src, c] ++ (BitVec.ofNat 8 p.length :: p) ++ [k] := by
    simp [frameBytes]
  have hbody : xs ++ ys.dropLast = [header0, header1, d, src, c] ++ (BitVec.ofNat 8 p.length :: p) := by
    rw [← List.dropLast_append_of_ne_nil hys, hbytes, hframe, List.dropLast_concat]
  have hfeed := feed_append xs ys.dropLast s
  rw [hbody, feed_append, feed_header d src c hr hp, andThen_next, feed_length_payload (by exact hr) rfl h64,
    hu] at hfeed
  exact not_ready_of_feed hfeed.symm hr

/-- CHECK of a response from the target with the expected command, its checksum good and its payload within the
capacity (41 R134). -/
theorem verdict_of_response {s : State} {d target expCmd : Byte} {cap : Nat} {p : List Byte}
    (he : expCmd.toNat ≤ 0x7F) (h64 : p.length ≤ maxRxLen) (hcap : p.length ≤ cap) :
    (s.captured d target expCmd p (lrc d target expCmd (BitVec.ofNat 8 p.length) p)).verdict target expCmd cap p =
      .ok (.bytes p) := by
  have herr : ¬ errFlag expCmd = true := by
    rw [errFlag_eq, decide_eq_true_iff]
    omega
  have haddr : ¬ (target ≠ broadcast ∧ target ≠ target) := fun h => h.2 rfl
  have hsum : (s.captured d target expCmd p (lrc d target expCmd (BitVec.ofNat 8 p.length) p)).spanLrc p =
      lrc d target expCmd (BitVec.ofNat 8 p.length) p := rfl
  rw [State.verdict_of_matched (expCmd := expCmd) hsum herr haddr (and_cmdMask_of_le he)
    (captured_payload _ _ _ _ s h64), if_neg (Nat.not_lt.2 hcap)]

/-- A call whose polls deliver a good response in time, cut in any way, ends with its payload delivered. -/
theorem enterWait_of_response {w : Wait} {s : State} {p : List Byte} {polls : Polls}
    {final : List Byte × Deadline × Bool} {rest : List Line} (hr : s.ready = false) (hp : s.phase = .awaitHeader0)
    (he : w.expCmd.toNat ≤ 0x7F) (h64 : p.length ≤ maxRxLen) (hcap : p.length ≤ w.cap)
    (hbytes : pollBytes (polls ++ [final]) = encodeFrame s.masterAddr w.target w.expCmd p) (hfinal : final.1 ≠ [])
    (ht : inTime w s.nowMs (polls ++ [final]) = true) (hs : s.script = pollLines (polls ++ [final]) ++ rest) :
    ∃ u, enterWait w s = .next u ∧ u.result = some (w.deliver (.ok (.bytes p))) ∧ u.wait = none ∧ u.ready = false ∧
      u.phase = .awaitHeader0 ∧ u.script = rest ∧ u.cmdTimeoutMs = s.cmdTimeoutMs ∧ u.sent = s.sent := by
  obtain ⟨bs, d, keep⟩ := final
  have hcut : pollBytes polls ++ bs = encodeFrame s.masterAddr w.target w.expCmd p := by
    rw [← hbytes, pollBytes_append]
    simp [pollBytes]
  rw [inTime_append, Bool.and_eq_true] at ht
  obtain ⟨ht, htlast⟩ := ht
  have hd : w.expired d (readingAfter s.nowMs polls) = false := by simpa [inTime] using htlast
  have hwhole := feed_frameBytes s.masterAddr w.target w.expCmd
    (lrc s.masterAddr w.target w.expCmd (BitVec.ofNat 8 p.length) p) hr hp h64
  rw [← encodeFrame, ← hcut, feed_append] at hwhole
  obtain ⟨u, hu, hlast⟩ := andThen_eq_next.1 hwhole
  have hur := not_ready_before_last_byte hr hp h64 hcut hfinal hu
  have hfeed := feed_setNow (readingAfter s.nowMs polls) (feed_entering w hlast)
  have hpay := captured_payload s.masterAddr w.target w.expCmd
    (lrc s.masterAddr w.target w.expCmd (BitVec.ofNat 8 p.length) p) s h64
  refine ⟨_, (enterWait_pollLines hr (hs.trans (pollLines_append ..)) ht hu hur).trans
    (awaitLines_poll_of_ready rfl rest hfeed (decide_eq_true rfl) (.inl hd) (State.payload_of_same hpay rfl rfl rfl)),
    ?_, rfl, rfl, rfl, rfl, rfl, rfl⟩
  exact congrArg (fun r => some (w.deliver r)) (verdict_of_response he h64 hcap)

/-! ### How a wait ends (45 R233) -/

/-- The decoder searches and holds no frame. -/
def State.idle (s : State) : Prop := s.ready = false ∧ s.phase = .awaitHeader0

theorem conclude_idle {w : Wait} {s t : State} (hs : s.Inv) (hr : s.ready = true) (h : conclude w s = .next t) :
    t.idle := by
  obtain ⟨-, -, hready⟩ := hs
  obtain ⟨hphase, -⟩ := State.readyOk_iff.1 (hready hr)
  obtain ⟨p, -, rfl⟩ := conclude_eq_next.1 h
  exact ⟨rfl, hphase⟩

theorem expire_idle {s t : State} (h : expire s = .next t) : t.idle := by
  rw [expire_eq_next.1 h]
  exact ⟨rfl, rfl⟩

/-- An iteration leaves the decoder idle, or the call in progress. -/
theorem iterate_idle {w : Wait} {bs : List Byte} {d : Deadline} {keep : Bool} {s t : State} (hs : s.Inv)
    (h : iterate w bs d keep s = .next t) : t.idle ∨ t.wait = s.wait := by
  obtain ⟨u, hu, -⟩ := andThen_eq_next.1 h
  have hinv := (keeps_setNow u (d.reading s.nowMs)).inv ((feed_keeps hu).inv hs)
  rw [iterate_eq hu] at h
  split_ifs at h with _ hk hr
  · exact .inl (conclude_idle hinv (Bool.and_eq_true_iff.1 hk).1 h)
  · exact .inl (expire_idle h)
  · exact .inl (conclude_idle hinv hr h)
  · cases h
    exact .inr (feed_decoderOnly hu).wait

/-- Where the loop ends the call with a result the decoder is idle; an abort ends it with none. -/
theorem awaitLines_idle {w : Wait} {l : List Line} {s t : State} (hs : s.Inv) (hw : s.wait = some w)
    (h : awaitLines l s = .next t) (ht : t.wait = none) (hr : t.result ≠ none) : t.idle := by
  induction l generalizing s w with
  | nil =>
    cases h
    cases hw.symm.trans ht
  | cons x l ih =>
    cases x with
    | poll bs d keep =>
      obtain ⟨u, hu, hl⟩ := andThen_eq_next.1 ((awaitLines_poll hw l).symm.trans h)
      cases huw : u.wait with
      | some w' => exact ih ((iterate_keeps hu).inv hs) huw hl
      | none =>
        rw [awaitLines_of_wait_none l huw] at hl
        cases hl
        obtain hidle | hsame := iterate_idle hs hu
        · exact hidle
        · cases huw.symm.trans (hsame.trans hw)
    | abort =>
      simp only [awaitLines, hw] at h
      cases h
      exact absurd rfl hr
    | rxb | call =>
      cases h
      cases hw.symm.trans ht

theorem enterWait_idle {w : Wait} {s t : State} (hs : s.Inv) (h : enterWait w s = .next t) (ht : t.wait = none)
    (hr : t.result ≠ none) : t.idle := by
  have hinv : (s.entering w).Inv := ((keeps_setWait s (some w)).trans (keeps_setResult _ none)).inv hs
  cases hready : s.ready with
  | true => exact conclude_idle hinv hready ((enterWait_of_ready w hready).symm.trans h)
  | false => exact awaitLines_idle hinv rfl ((enterWait_of_not_ready w hready).symm.trans h) ht hr

/-- An operation that may happen during a wait leaves the call in progress, or abandons it without a result
(70 R270). -/
theorem exec_duringWait {i : Instr} {s t : State} (hi : duringWait i = true) (h : exec i s = .next t) :
    t.wait = s.wait ∨ t.result = none := by
  cases InstrFamily.of i with
  | transition hrun => exact .inl (runTransition_decoderOnly ((hrun s).symm.trans h)).wait
  | leavesDecoder hl =>
    obtain ⟨ms, -, rfl⟩ | ⟨r, rfl⟩ | ⟨frame, r, rfl⟩ := exec_cases_of_leavesDecoder hl h <;> exact .inl rfl
  | frame => exact .inl (feed_decoderOnly (execFrame_eq_next h)).wait
  | reset =>
    cases h
    exact .inr rfl
  | decReset | check | await | op => cases hi

/-- Where a step ends a wait with a result the decoder is idle: a byte leaves the wait in progress, an abort and a RESET
leave no result. -/
theorem step_idle {s t : State} (hs : s.Inv) (hw : s.wait.isSome = true) (h : step s = .next t) (ht : t.wait = none)
    (hr : t.result ≠ none) : t.idle := by
  obtain ⟨w, hw'⟩ := Option.isSome_iff_exists.1 hw
  have hended : t.wait ≠ s.wait := by
    rw [ht, hw']
    exact (Option.some_ne_none w).symm
  cases hscript : s.script with
  | nil =>
    rw [step, hscript] at h
    cases h
    exact absurd rfl hended
  | cons x rest =>
    cases x with
    | rxb b =>
      rw [step_rxb hscript] at h
      exact absurd (receive_decoderOnly ((exec_decodeByte b (s.setScript rest)).symm.trans h)).wait hended
    | poll bs d keep => exact awaitLines_idle hs hw' ((step_poll hscript hw').symm.trans h) ht hr
    | abort =>
      rw [step_abort hscript hw] at h
      cases h
      exact absurd rfl hr
    | call i =>
      by_cases hi : i.WellFormed
      · rw [step_call hscript hi, hw, Bool.true_and] at h
        cases hduring : duringWait i with
        | false =>
          rw [hduring] at h
          cases h
        | true =>
          rw [hduring] at h
          obtain hsame | hnone := exec_duringWait hduring h
          · exact absurd hsame hended
          · exact absurd hnone hr
      · rw [step_call_ill_formed hscript hi] at h
        cases h

/-! ### The typed operation (45 R230 to R232) -/

/-- A SEND that ended with Ok has handed its frame over. -/
theorem transmit_of_send_ok {target c : Byte} {p : List Byte} {s u : State} (h : execSend target c p s = .next u)
    (hu : u.result = some (.ok .unit)) :
    ∃ t, transmit target c p s = (none, t) ∧ u = t.setResult (some (.ok .unit)) := by
  unfold execSend at h
  split at h <;> cases h
  case h_1 t ht => exact ⟨t, ht, rfl⟩
  case h_2 => cases hu

theorem transmit_of_send_err {target c : Byte} {p : List Byte} {s u : State} {e : Err}
    (h : execSend target c p s = .next u) (hu : u.result = some (.err e)) :
    ∃ t, transmit target c p s = (some e, t) ∧ raise e t = .next u := by
  unfold execSend at h
  split at h
  case h_1 =>
    cases h
    cases hu
  case h_2 e' t ht =>
    cases h
    cases hu
    exact ⟨t, ht, rfl⟩

section TypedOperation

variable {target c : Byte} {req : Request} {cap : Nat} {rsp : Response} {s t : State}

/-- A well-formed OP whose SEND ends with Ok goes on as AWAIT with the timeout register (45 R230). -/
theorem execOp_of_sent (hwf : (Instr.op target c req cap rsp).WellFormed)
    (h : transmit target c (packRequest req) s = (none, t)) :
    execOp target c req cap rsp s = enterWait ⟨target, c, t.nowMs, t.cmdTimeoutMs, cap, some rsp⟩ t := by
  rw [execOp, show (req.inDomain && layoutsAllowed c req rsp) = true from hwf, whenDefined_true, h]

theorem execOp_of_send_error {e : Err} (hwf : (Instr.op target c req cap rsp).WellFormed)
    (h : transmit target c (packRequest req) s = (some e, t)) : execOp target c req cap rsp s = raise e t := by
  rw [execOp, show (req.inDomain && layoutsAllowed c req rsp) = true from hwf, whenDefined_true, h]

end TypedOperation

/-- No layout goes with a command byte that has the error flag (30 R76, 45 R230). -/
theorem layoutsAllowed_of_errFlag {c : Byte} (h : 0x7F < c.toNat) (req : Request) (rsp : Response) :
    layoutsAllowed c req rsp = false := by
  have hflag : c.getLsbD errFlagBit = true := (errFlag_eq c).trans (decide_eq_true h)
  have hrule : (classify c).payload = .errorCode := by
    simp only [classify, hflag, if_true, CmdClass.payload]
  simp only [layoutsAllowed, hrule]

/-- The command of a well-formed OP has no error flag (45 R230). -/
theorem command_le_of_op_wellFormed {target c : Byte} {req : Request} {cap : Nat} {rsp : Response}
    (hwf : (Instr.op target c req cap rsp).WellFormed) : c.toNat ≤ 0x7F := by
  by_contra h
  have hallowed : layoutsAllowed c req rsp = true := (Bool.and_eq_true_iff.1 hwf).2
  rw [layoutsAllowed_of_errFlag (Nat.not_le.1 h)] at hallowed
  cases hallowed

/-! ### A call and the same call with a layout (45 R230) -/

/-- The result of a call whose response is unpacked with a layout. -/
def unpackOk (rsp : Response) : Result → Result
  | .ok (.bytes p) => unpackResponse rsp p
  | r => r

/-- The call with a layout to unpack the payload with. -/
def Wait.typed (rsp : Response) (w : Wait) : Wait := { w with unpack := some rsp }

/-- The state in which the call has a layout, and its result, if there is one, is unpacked. -/
def State.typed (rsp : Response) (s : State) : State :=
  { s with wait := s.wait.map (Wait.typed rsp), result := s.result.map (unpackOk rsp) }

/-- Do as before, then unpack. -/
def Out.typed (rsp : Response) (o : Out) : Out := andThen o fun t => .next (t.typed rsp)

@[simp] theorem Out.typed_next (rsp : Response) (s : State) : Out.typed rsp (.next s) = .next (s.typed rsp) := rfl

theorem Wait.deliver_typed {w : Wait} (rsp : Response) (hw : w.unpack = none) (r : Result) :
    (w.typed rsp).deliver r = unpackOk rsp (w.deliver r) := by
  rw [show w.deliver r = r by simp [Wait.deliver, hw]]
  cases r with
  | ok v => cases v <;> rfl
  | err e => rfl

theorem Wait.expired_typed (rsp : Response) (w : Wait) (d : Deadline) (now : Nat) :
    (w.typed rsp).expired d now = w.expired d now := by
  cases d <;> rfl

theorem feed_typed (rsp : Response) (bs : List Byte) (s : State) :
    feed bs (s.typed rsp) = Out.typed rsp (feed bs s) := by
  rw [show s.typed rsp = s.inCall (s.wait.map (Wait.typed rsp)) (s.result.map (unpackOk rsp)) s.nowMs s.script from rfl,
    feed_inCall]
  cases hf : feed bs s with
  | fault | refused => rfl
  | next t =>
    have hd : t = _ := feed_decoderOnly hf
    rw [andThen_next, hd]
    rfl

theorem conclude_typed {w : Wait} (rsp : Response) (hw : w.unpack = none) (s : State) :
    conclude (w.typed rsp) (s.typed rsp) = Out.typed rsp (conclude w s) := by
  have hpay : (s.typed rsp).payload = s.payload := State.payload_congr rfl rfl rfl
  cases hp : s.payload with
  | none =>
    simp only [conclude, checkFrame, hpay, hp]
    rfl
  | some p =>
    rw [conclude_eq hp, conclude_eq (hpay.trans hp), Wait.deliver_typed rsp hw]
    rfl

theorem iterate_typed {w : Wait} (rsp : Response) (hw : w.unpack = none) (bs : List Byte) (d : Deadline) (keep : Bool)
    (s : State) : iterate (w.typed rsp) bs d keep (s.typed rsp) = Out.typed rsp (iterate w bs d keep s) := by
  cases hf : feed bs s with
  | fault | refused => simp only [iterate, feed_typed, hf, Out.typed, andThen_fault, andThen_refused]
  | next t =>
    have hf' : feed bs (s.typed rsp) = .next (t.typed rsp) := by rw [feed_typed, hf, Out.typed_next]
    have hnow : (t.typed rsp).setNow (d.reading s.nowMs) = (t.setNow (d.reading s.nowMs)).typed rsp := rfl
    have hready : (t.typed rsp).ready = t.ready := rfl
    rw [iterate_eq hf, iterate_eq hf', Wait.expired_typed, show (s.typed rsp).nowMs = s.nowMs from rfl, hnow, hready,
      conclude_typed rsp hw]
    split_ifs <;> rfl

/-- The loop of the call with a layout is the loop of the call, its result unpacked. -/
theorem awaitLines_typed (rsp : Response) (l : List Line) {s : State} (hs : ∀ w, s.wait = some w → w.unpack = none) :
    awaitLines l (s.typed rsp) = Out.typed rsp (awaitLines l s) := by
  induction l generalizing s with
  | nil => rfl
  | cons x l ih =>
    cases hw : s.wait with
    | none =>
      rw [awaitLines_of_wait_none _ hw, awaitLines_of_wait_none _ (congrArg (Option.map (Wait.typed rsp)) hw)]
      rfl
    | some w =>
      have hw' : (s.typed rsp).wait = some (w.typed rsp) := congrArg (Option.map (Wait.typed rsp)) hw
      cases x with
      | poll bs d keep =>
        rw [awaitLines_poll hw, awaitLines_poll hw', iterate_typed rsp (hs w hw)]
        cases hi : iterate w bs d keep s with
        | fault | refused => rfl
        | next t =>
          rw [Out.typed_next, andThen_next, andThen_next]
          refine ih fun w' hw'' => ?_
          obtain hnone | hsame := iterate_wait hi
          · cases hnone.symm.trans hw''
          · exact hs w' (hsame.symm.trans hw'')
      | abort =>
        simp only [awaitLines, hw, hw']
        rfl
      | rxb | call => rfl

theorem enterWait_typed {w : Wait} (rsp : Response) (hw : w.unpack = none) (s : State) :
    enterWait (w.typed rsp) s = Out.typed rsp (enterWait w s) := by
  have henter : s.entering (w.typed rsp) = (s.entering w).typed rsp := rfl
  cases hr : s.ready with
  | true => rw [enterWait_of_ready _ hr, enterWait_of_ready _ hr, henter, conclude_typed rsp hw]
  | false =>
    rw [enterWait_of_not_ready _ hr, enterWait_of_not_ready _ hr, henter]
    refine awaitLines_typed rsp s.script fun w' hw' => ?_
    cases hw'
    exact hw

/-! ### The statements -/

/-- Settles O9: a POLL line is one iteration and then the loop over the lines behind it, which goes on as the next step
would (`awaitLines_eq_step`). -/
theorem idleOrWaitingBlockGoesOnAtItsNextLine : Obligations.IdleOrWaitingBlockGoesOnAtItsNextLine := by
  intro s
  refine ⟨fun hs => ?idle, fun w rest hw => ⟨fun hs => ?abort, fun bs d keep t hs hf => ?poll⟩⟩
  case idle => rw [step, hs]
  case abort => exact step_abort hs (by rw [hw]; rfl)
  case poll =>
    intro expired now u
    have hexpired : w.expired d s.nowMs = expired := by cases d <;> rfl
    have hnow : d.reading s.nowMs = now := by cases d <;> rfl
    have hstep : step s = awaitLines (.poll bs d keep :: rest) s := step_poll hs hw
    refine ⟨fun he hr => ?goesOn, fun he hk => ?expires, fun p hp hr he => ?concludes⟩
    case goesOn =>
      have htwait : (t.setNow now).wait.isSome = true := by
        rw [State.setNow_wait, (feed_decoderOnly hf).wait, hw]
        rfl
      rw [hstep, awaitLines_poll hw, iterate_of_neither keep hf hr (hexpired.trans he), andThen_next, hnow,
        awaitLines_eq_step rest htwait]
      rfl
    case expires =>
      rw [hstep, awaitLines_poll_of_expired hw rest hf (hexpired.trans he) hk, hnow]
      rfl
    case concludes =>
      refine ⟨_, execCheck_eq hr (State.payload_of_same hp rfl rfl rfl), ?_⟩
      rw [hstep, awaitLines_poll_of_ready hw rest hf hr (hexpired.symm ▸ he) hp, hnow]
      rfl

/-- Settles O37: with a frame ready the call concludes at once. -/
theorem awaitChecksAReadyFrameAtOnce : Obligations.AwaitChecksAReadyFrameAtOnce := by
  intro s target e ms cap p hr hp
  exact ⟨_, execCheck_eq hr hp,
    (enterWait_of_ready _ hr).trans (conclude_eq (State.payload_of_same hp rfl rfl rfl))⟩

/-- Settles O40: with no line left the loop has nothing to run over. -/
theorem awaitWithoutPollsStaysInProgress : Obligations.AwaitWithoutPollsStaysInProgress := by
  intro s target e ms cap hr hs
  refine (enterWait_of_not_ready _ hr).trans ?_
  rw [hs, awaitLines, State.entering, State.setScript, ← hs]
  rfl

/-- Settles O38: the loop comes to the poll that finds the deadline (`enterWait_pollLines`), whose iteration ends it. -/
theorem awaitTimesOutAndResetsTheDecoder : Obligations.AwaitTimesOutAndResetsTheDecoder := by
  intro s target e timeoutMs cap polls bs d keep rest hinv hr hs w ht he
  obtain ⟨u, hu⟩ := exists_feed_eq_next (pollBytes polls) hinv
  obtain ⟨t, hlast⟩ := exists_feed_eq_next bs ((feed_keeps hu).inv hinv)
  refine ⟨u, t, hu, hlast, fun hur => ?_⟩
  intro v
  have hloop : exec (.await target e timeoutMs cap) s = _ :=
    enterWait_pollLines hr (hs.trans (pollLines_append ..)) ht hu hur
  have hfeed := feed_setNow (readingAfter s.nowMs polls) (feed_entering w hlast)
  have hv : v = ((t.setNow (d.reading (readingAfter s.nowMs polls))).setWait none).setScript rest := by
    simp only [v, readingAfter_append]
    rfl
  rw [hv]
  refine ⟨fun hk => ?expires, fun htr hk => ?kept⟩
  case expires => exact hloop.trans ((awaitLines_poll_of_expired rfl rest hfeed he hk).trans rfl)
  case kept =>
    obtain ⟨-, -, hready⟩ := (feed_keeps hlast).inv ((feed_keeps hu).inv hinv)
    obtain ⟨-, -, h64, -⟩ := State.readyOk_iff.1 (hready htr)
    obtain ⟨p, hp⟩ := State.payload_isSome h64
    exact ⟨_, execCheck_eq htr (State.payload_of_same hp rfl rfl rfl),
      hloop.trans (awaitLines_poll_of_ready rfl rest hfeed htr (.inr hk) (State.payload_of_same hp rfl rfl rfl))⟩

/-- Settles O39: a bare call delivers CHECK's result as it is. -/
theorem awaitDeliversAFragmentedResponse : Obligations.AwaitDeliversAFragmentedResponse := by
  intro s target e timeoutMs cap p polls final rest hr hp he h64 hcap hbytes hfinal ht hs
  exact enterWait_of_response (w := ⟨target, e, s.nowMs, timeoutMs, cap, none⟩) hr hp he h64 hcap hbytes hfinal ht hs

/-- Settles O41: on each of the three routes the loop ends with the decoder idle. -/
theorem waitsEndingWithAResultLeaveTheDecoderIdle : Obligations.WaitsEndingWithAResultLeaveTheDecoderIdle := by
  rintro s t hs ht hr (⟨target, e, ms, cap, h⟩ | ⟨target, c, req, cap, rsp, u, hsend, hu, h⟩ | ⟨hw, h⟩)
  case inl => exact enterWait_idle hs h ht hr
  case inr.inl =>
    obtain ⟨x, hx, -⟩ := transmit_of_send_ok hsend hu
    have hwf : (Instr.op target c req cap rsp).WellFormed := (whenDefined_eq_next.1 h).1
    have hinv : x.Inv := by simpa only [hx] using (transmit_keeps target c (packRequest req) s).inv hs
    exact enterWait_idle hinv ((execOp_of_sent hwf hx).symm.trans h) ht hr
  case inr.inr => exact step_idle hs hw h ht hr

/-- Settles O42: OP's wait is AWAIT's with the layout added, and the loop reads the layout at its end only
(`enterWait_typed`). -/
theorem typedOperationIsSendThenAwaitThenUnpack : Obligations.TypedOperationIsSendThenAwaitThenUnpack := by
  intro s u target c req cap rsp hwf hsend
  refine ⟨fun e he => ?error, fun v hok hv => ?sent⟩
  case error =>
    obtain ⟨t, ht, hu⟩ := transmit_of_send_err hsend he
    exact (execOp_of_send_error hwf ht).trans hu
  case sent =>
    obtain ⟨t, ht, rfl⟩ := transmit_of_send_ok hsend hok
    have hv' : enterWait ⟨target, c, t.nowMs, t.cmdTimeoutMs, cap, none⟩ t = .next v := hv
    refine (execOp_of_sent hwf ht).trans
      ((enterWait_typed (w := ⟨target, c, t.nowMs, t.cmdTimeoutMs, cap, none⟩) rsp rfl t).trans ?_)
    rw [hv', Out.typed_next]
    rfl

/-- Settles O43: SEND hands the one frame over, and its wait is that of a good response. -/
theorem typedOperationCompletesEndToEnd : Obligations.TypedOperationCompletesEndToEnd := by
  intro s target c req cap rsp as p polls final rest hwf hctx htimer h63 has hr hp h64 hcap hbytes hfinal ht hs
  have hanswer : s.transportAnswer = true := by rw [State.transportAnswer, has]
  have hsent : transmit target c (packRequest req) s =
      (none, s.handOver (encodeFrame target s.masterAddr c (packRequest req))) := by
    rw [transmit, State.sendError_eq_none hctx htimer h63, hanswer]
    rfl
  obtain ⟨u, hu, hres, hwait, hready, hphase, hscript, -, hu'⟩ :=
    enterWait_of_response (w := ⟨target, c, s.nowMs, s.cmdTimeoutMs, cap, some rsp⟩)
      (s := s.handOver (encodeFrame target s.masterAddr c (packRequest req))) hr hp
      (command_le_of_op_wellFormed hwf) h64 hcap hbytes hfinal ht hs
  refine ⟨u, (execOp_of_sent hwf hsent).trans hu, hres, hwait, hready, hphase, hscript, ?_⟩
  rw [hu', State.handOver_sent, hanswer]

end Sys2Proof.Machine
end

section
/-! PROOF. The 32-bit float field and the layouts made of it and of arrays: the PID block, the custom request and the
custom response (43 R171, R172, 44 R187, R188, R197 to R204). -/

namespace Sys2Proof.Machine

/-- An operation that ends with the value of a total rule gives that value and changes nothing else (60 R240). -/
theorem endWith_eq_giving {r r' : Result} (s : State) (h : r = r') : endWith r s = .next (s.giving r') :=
  h ▸ endWith_eq r s

/-! ### The float field (43 R171, R172) -/

theorem exec_unpackF32 {bs : List Byte} {a : Nat} (s : State) (h : a + 4 ≤ bs.length) :
    exec (.unpackF32 bs a) s = .next (s.giving (.ok (.word32 (unpackF32 bs a)))) :=
  whenDefined_eq_next.2 ⟨decide_eq_true h, rfl⟩

@[simp] theorem length_packF32 (w : Word32) : (packF32 w).length = 4 := rfl

theorem packF32_eq (w : Word32) :
    packF32 w = [BitVec.ofNat 8 (w.toNat % 256), BitVec.ofNat 8 (w.toNat / 2 ^ 8 % 256),
      BitVec.ofNat 8 (w.toNat / 2 ^ 16 % 256), BitVec.ofNat 8 (w.toNat / 2 ^ 24)] := by
  have h0 : w.setWidth 8 = BitVec.ofNat 8 (w.toNat % 256) := by bv_omega
  have h1 : (w >>> 8).setWidth 8 = BitVec.ofNat 8 (w.toNat / 2 ^ 8 % 256) := by bv_omega
  have h2 : (w >>> 16).setWidth 8 = BitVec.ofNat 8 (w.toNat / 2 ^ 16 % 256) := by bv_omega
  have h3 : (w >>> 24).setWidth 8 = BitVec.ofNat 8 (w.toNat / 2 ^ 24) := by bv_omega
  rw [packF32, h0, h1, h2, h3]

theorem unpackF32_eq {bs : List Byte} {a : Nat} (h : a + 3 < bs.length) :
    unpackF32 bs a = BitVec.ofNat 32 (bs[a].toNat + 2 ^ 8 * bs[a + 1].toNat + 2 ^ 16 * bs[a + 2].toNat
      + 2 ^ 24 * bs[a + 3].toNat) := by
  rw [unpackF32, unpackU8_eq (by omega), unpackU8_eq (by omega), unpackU8_eq (by omega), unpackU8_eq h]

/-- A packed pattern is read back wherever it stands. -/
theorem unpackF32_packF32 (pre post : List Byte) (w : Word32) :
    unpackF32 (pre ++ packF32 w ++ post) pre.length = w := by
  have hlen : pre.length + 3 < (pre ++ packF32 w ++ post).length := by
    simp only [List.length_append, length_packF32]
    omega
  have hsum : BitVec.ofNat 32 (w.toNat % 256 + 2 ^ 8 * (w.toNat / 2 ^ 8 % 256) + 2 ^ 16 * (w.toNat / 2 ^ 16 % 256)
      + 2 ^ 24 * (w.toNat / 2 ^ 24 % 256)) = w := by
    bv_omega
  rw [unpackF32_eq hlen]
  simpa [packF32_eq] using hsum

/-! ### The PID block (44 R187, R188) -/

/-- Each of the four terms of a PID block is read back at its offset, wherever the block stands (44 R187, D14). -/
theorem unpackF32_packPid (pre post : List Byte) (p i d g : Word32) :
    unpackF32 (pre ++ packPid p i d g ++ post) pre.length = p ∧
      unpackF32 (pre ++ packPid p i d g ++ post) (pre.length + 4) = i ∧
      unpackF32 (pre ++ packPid p i d g ++ post) (pre.length + 8) = d ∧
      unpackF32 (pre ++ packPid p i d g ++ post) (pre.length + 12) = g := by
  refine ⟨?p, ?i, ?d, ?g⟩
  case p => simpa [packPid] using unpackF32_packF32 pre (packF32 i ++ packF32 d ++ packF32 g ++ post) p
  case i => simpa [packPid] using unpackF32_packF32 (pre ++ packF32 p) (packF32 d ++ packF32 g ++ post) i
  case d => simpa [packPid] using unpackF32_packF32 (pre ++ packF32 p ++ packF32 i) (packF32 g ++ post) d
  case g => simpa [packPid] using unpackF32_packF32 (pre ++ packF32 p ++ packF32 i ++ packF32 d) post g

theorem unpackPid_packPid (pre post : List Byte) (p i d g : Word32) :
    unpackPid (pre ++ packPid p i d g ++ post) pre.length = .ok (.pid p i d g) := by
  have hlen : ¬ (pre ++ packPid p i d g ++ post).length < pre.length + 16 := by
    simp only [packPid, List.length_append, length_packF32]
    omega
  obtain ⟨hp, hi, hd, hg⟩ := unpackF32_packPid pre post p i d g
  rw [unpackPid, if_neg hlen, hp, hi, hd, hg]

/-! ### The custom request (44 R197 to R199) -/

theorem customArraysFit_iff {mask : Byte} {n : Nat} {speed position : List Word16} {angle : List Int} :
    customArraysFit mask n speed position angle = true ↔
      speed.length = (if mask.getLsbD 0 then n else 0) ∧ position.length = (if mask.getLsbD 1 then n else 0) ∧
        angle.length = (if mask.getLsbD 2 then n else 0) := by
  simp only [customArraysFit, arrayFits, Bool.and_eq_true, decide_eq_true_eq, and_assoc]
  rfl

/-- An array with one value per motor where its bit is set, and none elsewhere, is packed as it stands (44 R197). -/
theorem setBlock_flatMap {α : Type} {mask : Byte} {bit n : Nat} {vs : List α} (pack : α → List Byte)
    (h : vs.length = if mask.getLsbD bit then n else 0) : setBlock mask bit (vs.flatMap pack) = vs.flatMap pack := by
  unfold setBlock
  split
  case isTrue => rfl
  case isFalse hbit =>
    rw [if_neg hbit] at h
    rw [List.eq_nil_of_length_eq_zero h, List.flatMap_nil]

theorem length_eq_mul_toNat {b : Bool} {n m : Nat} (h : m = if b then n else 0) : m = n * b.toNat := by
  cases b <;> simpa using h

/-! ### The custom response (44 R200 to R204) -/

section CustomResponse

variable {mask : Byte} {bit n o : Nat}

/-- The block of an active field has `width` bytes per motor, that of an inactive one none (44 R200). -/
theorem length_setBlock {width : Nat} {packed : List Byte} (h : packed.length = width * n) :
    (setBlock mask bit packed).length = fieldWidth mask bit width * n := by
  unfold setBlock fieldWidth
  split
  · exact h
  · exact (Nat.zero_mul n).symm

/-- What a read finds behind `pre` in a packed array, the active field's array is. -/
theorem getBlock_setBlock {α : Type} {read : List Byte → Nat → Nat → List α} {packed : List Byte} {x : List α}
    (pre post : List Byte) (ho : pre.length = o) (h : ∀ pre post, read (pre ++ packed ++ post) pre.length n = x) :
    getBlock mask bit (read (pre ++ (setBlock mask bit packed ++ post)) o n) = getBlock mask bit x := by
  subst ho
  rw [← List.append_assoc]
  unfold getBlock setBlock
  split
  · rw [h]
  · rfl

theorem s16Array_packS16 {vs : List Int} (h : ∀ v ∈ vs, inRange16 .signed v = true) (pre post : List Byte) :
    s16Array (pre ++ vs.flatMap packS16 ++ post) pre.length vs.length = vs :=
  array16_pack16 (r := .signed) h pre post

theorem u8Array_bytes (bs pre post : List Byte) :
    u8Array (pre ++ bs ++ post) pre.length bs.length = bs.map BitVec.toNat := by
  refine List.ext_getElem (by simp [u8Array]) fun k hk _ => ?_
  have hk : k < bs.length := by simpa [u8Array] using hk
  have hlt : pre.length + k < (pre ++ bs ++ post).length := by
    simp only [List.length_append]
    omega
  simp only [u8Array, List.getElem_map, List.getElem_range, unpackU8_eq hlt]
  simp [hk]

/-- The blocks of a custom response, in their order (44 R204). -/
def customBlocks (mask : Byte) (position angle current force status : List Byte) : List Byte :=
  setBlock mask bitGetPosition position ++ setBlock mask bitGetAngle angle ++ setBlock mask bitGetCurrent current
    ++ setBlock mask bitGetForce force ++ setBlock mask bitGetStatus status

theorem length_customBlocks {position angle current force status : List Byte} (hp : position.length = 2 * n)
    (ha : angle.length = 2 * n) (hc : current.length = 2 * n) (hf : force.length = 2 * n)
    (hs : status.length = 1 * n) :
    (customBlocks mask position angle current force status).length = customWidth mask * n := by
  simp only [customBlocks, List.length_append, length_setBlock hp, length_setBlock ha, length_setBlock hc,
    length_setBlock hf, length_setBlock hs, customWidth, Nat.add_mul]

/-- A custom response of `n` motors within the capacity is read in full (44 R200 to R204). -/
theorem unpackCustom_of_length {p : List Byte} {cap : Nat} (hw : customWidth mask ≠ 0)
    (hp : p.length = customWidth mask * n) (hcap : n ≤ cap) :
    unpackCustom mask p cap = .ok (customArrays mask p n) := by
  have hn : p.length / customWidth mask = n := by rw [hp, Nat.mul_div_cancel_left n (Nat.pos_of_ne_zero hw)]
  have hrem : p.length % customWidth mask = 0 := by rw [hp, Nat.mul_mod_right]
  rw [unpackCustom, if_neg hw, hrem, if_neg (not_not_intro rfl), hn, if_neg (Nat.not_lt.2 hcap)]

/-- Each block is read where it stands, behind the blocks before it (44 R204). -/
theorem customArrays_customBlocks {position angle current force status : List Byte} {ps cs fs ss : List Nat}
    {as : List Int} (hp : position.length = 2 * n) (ha : angle.length = 2 * n) (hc : current.length = 2 * n)
    (hf : force.length = 2 * n) (readP : ∀ pre post, u16Array (pre ++ position ++ post) pre.length n = ps)
    (readA : ∀ pre post, s16Array (pre ++ angle ++ post) pre.length n = as)
    (readC : ∀ pre post, u16Array (pre ++ current ++ post) pre.length n = cs)
    (readF : ∀ pre post, u16Array (pre ++ force ++ post) pre.length n = fs)
    (readS : ∀ pre post, u8Array (pre ++ status ++ post) pre.length n = ss) :
    customArrays mask (customBlocks mask position angle current force status) n =
      .custom n (getBlock mask bitGetPosition ps) (getBlock mask bitGetAngle as) (getBlock mask bitGetCurrent cs)
        (getBlock mask bitGetForce fs) (getBlock mask bitGetStatus ss) := by
  have hlenP := length_setBlock (mask := mask) (bit := bitGetPosition) hp
  have hlenA := length_setBlock (mask := mask) (bit := bitGetAngle) ha
  have hlenC := length_setBlock (mask := mask) (bit := bitGetCurrent) hc
  have hlenF := length_setBlock (mask := mask) (bit := bitGetForce) hf
  have hreadP post := getBlock_setBlock (mask := mask) (bit := bitGetPosition) [] post rfl readP
  have hreadA post := getBlock_setBlock (mask := mask) (bit := bitGetAngle)
    (setBlock mask bitGetPosition position) post hlenP readA
  have hreadC post := getBlock_setBlock (mask := mask) (bit := bitGetCurrent)
    (setBlock mask bitGetPosition position ++ setBlock mask bitGetAngle angle) post
    (by rw [List.length_append, hlenP, hlenA]) readC
  have hreadF post := getBlock_setBlock (mask := mask) (bit := bitGetForce)
    (setBlock mask bitGetPosition position ++ setBlock mask bitGetAngle angle ++ setBlock mask bitGetCurrent current)
    post (by rw [List.length_append, List.length_append, hlenP, hlenA, hlenC]) readF
  have hreadS := getBlock_setBlock (mask := mask) (bit := bitGetStatus)
    (setBlock mask bitGetPosition position ++ setBlock mask bitGetAngle angle ++ setBlock mask bitGetCurrent current
      ++ setBlock mask bitGetForce force) []
    (by rw [List.length_append, List.length_append, List.length_append, hlenP, hlenA, hlenC, hlenF]) readS
  simp only [List.append_assoc, List.nil_append, List.append_nil, List.length_nil] at hreadP hreadA hreadC hreadF hreadS
  simp only [customArrays, customBlocks, List.append_assoc, hreadP, hreadA, hreadC, hreadF, hreadS]

theorem fieldWidth_eq (mask : Byte) (bit width : Nat) :
    fieldWidth mask bit width = width * (mask.getLsbD bit).toNat := by
  unfold fieldWidth
  cases mask.getLsbD bit <;> simp

/-- W with the bits written out (44 R200). -/
theorem customWidth_eq (mask : Byte) :
    customWidth mask = 2 * ((mask.getLsbD 3).toNat + (mask.getLsbD 4).toNat + (mask.getLsbD 5).toNat
      + (mask.getLsbD 6).toNat) + (mask.getLsbD 7).toNat := by
  simp only [customWidth, fieldWidth_eq, bitGetPosition, bitGetAngle, bitGetCurrent, bitGetForce, bitGetStatus]
  omega

/-- With a get bit active the response has at least one byte per motor. -/
theorem customWidth_ne_zero (h : mask &&& 0xF8 ≠ 0) : customWidth mask ≠ 0 := by
  rw [customWidth_eq]
  intro hw
  have hbit (bit : Nat) (hlo : 3 ≤ bit) (hhi : bit < 8) : mask.getLsbD bit = false := by
    rw [← Bool.toNat_eq_zero]
    interval_cases bit <;> omega
  refine h (BitVec.eq_of_getLsbD_eq fun bit hhi => ?_)
  rw [BitVec.getLsbD_and]
  by_cases hlo : 3 ≤ bit
  · simp [hbit bit hlo hhi]
  · interval_cases bit <;> simp

end CustomResponse

/-! ### The statements -/

/-- Settles O46: each read is the sum of its own bytes, and the four bytes of a pattern are `packF32_eq`'s. -/
theorem floatFieldsMoveThePatternBitForBit : Obligations.FloatFieldsMoveThePatternBitForBit := by
  intro s bs post a
  refine ⟨fun h => ?read, fun w => ?_⟩
  case read => rw [exec_unpackF32 s h, unpackF32_eq h]
  rw [← packF32_eq]
  refine ⟨rfl, ?_⟩
  rw [exec_unpackF32 s (by simp), unpackF32_packF32]

/-- Settles O49: the block alone is the block with nothing around it, and a shorter sequence fails the length test. -/
theorem pidBlockRoundTrips : Obligations.PidBlockRoundTrips := by
  intro s p i d g pre post
  refine ⟨⟨packPid p i d g, rfl, rfl, ?_⟩, fun a h => endWith_eq_giving s (if_pos h)⟩
  obtain ⟨hp, hi, hd, hg⟩ := unpackF32_packPid [] [] p i d g
  simp only [List.nil_append, List.append_nil, List.length_nil, Nat.zero_add] at hp hi hd hg
  exact ⟨hp, hi, hd, hg, endWith_eq_giving s (unpackPid_packPid ..)⟩

/-- Settles O53: an array that is not active is empty, so packing every array packs the active ones. -/
theorem customRequestCarriesTheActiveSetArrays : Obligations.CustomRequestCarriesTheActiveSetArrays := by
  intro s mask n speed position angle hs hp ha hrange
  have hpack : packCustom mask speed position angle =
      mask :: (speed.flatMap packU16 ++ position.flatMap packU16 ++ angle.flatMap packS16) := by
    rw [packCustom, setBlock_flatMap (bit := bitSetSpeed) packU16 hs,
      setBlock_flatMap (bit := bitSetPosition) packU16 hp, setBlock_flatMap (bit := bitSetAngle) packS16 ha]
    simp [packU8]
  refine ⟨?_, ?length⟩
  · rw [← hpack]
    exact (if_pos (customArraysFit_iff.2 ⟨hs, hp, ha⟩)).trans (whenDefined_eq_next.2 ⟨List.all_eq_true.2 hrange, rfl⟩)
  case length =>
    simp only [List.length_cons, List.length_append, length_flatMap_of_width length_packU16,
      length_flatMap_of_width length_packS16, length_eq_mul_toNat hs, length_eq_mul_toNat hp, length_eq_mul_toNat ha]
    ring

/-- Settles O54: the blocks are as long as the width says, and each is read where it stands
(`customArrays_customBlocks`). -/
theorem customResponseReadsTheActiveGetArrays : Obligations.CustomResponseReadsTheActiveGetArrays := by
  intro s mask position current force angle status n cap hmask hcap hp ha hc hf hs hrange block
  have hlenU (vs : List Word16) (h : vs.length = n) : (vs.flatMap packU16).length = 2 * n := by
    rw [length_flatMap_of_width length_packU16, h]
  have hlenA : (angle.flatMap packS16).length = 2 * n := by rw [length_flatMap_of_width length_packS16, ha]
  have hlen := length_customBlocks (mask := mask) (hlenU position hp) hlenA (hlenU current hc) (hlenU force hf)
    (hs.trans (Nat.one_mul n).symm)
  have harrays := customArrays_customBlocks (mask := mask) (hlenU position hp) hlenA (hlenU current hc)
    (hlenU force hf) (hp ▸ u16Array_packU16 position) (ha ▸ s16Array_packS16 hrange) (hc ▸ u16Array_packU16 current)
    (hf ▸ u16Array_packU16 force) (hs ▸ u8Array_bytes status)
  exact endWith_eq_giving s
    ((unpackCustom_of_length (customWidth_ne_zero hmask) hlen hcap).trans (congrArg Result.ok harrays))

/-- Settles O48: RAW is the identity (44 R185). -/
theorem rawPayloadIsUnchanged : Obligations.RawPayloadIsUnchanged := fun _ _ => rfl

/-- Settles O55: each layout's tests in their order, with the counts and the width as the model reads them. -/
theorem layoutsRejectBadLengthsAndCapacities : Obligations.LayoutsRejectBadLengthsAndCapacities := by
  intro s p r mask cap capT w
  have hw : customWidth mask = w := customWidth_eq mask
  rw [← hw]
  refine ⟨fun hrem => ?allRemainder, fun hrem hcap => ?allCapacity, fun h => ?caliHeader, fun h hcap => ?caliCapacity,
    fun h hcapM hcapT hlen => ?caliLength, fun hw0 hrem => ?customRemainder, fun hw0 hrem hcap => ?customCapacity,
    fun hw0 => ?noGetBit⟩
  case allRemainder => exact endWith_eq_giving s (if_pos hrem)
  case allCapacity => exact endWith_eq_giving s ((if_neg (not_not_intro hrem)).trans (if_pos hcap))
  case caliHeader => exact endWith_eq_giving s (if_pos h)
  case caliCapacity =>
    rw [← unpackU8_eq, ← unpackU8_eq] at hcap
    exact endWith_eq_giving s ((if_neg (Nat.not_lt.2 h)).trans (if_pos hcap))
  case caliLength =>
    rw [← unpackU8_eq] at hcapM hcapT
    rw [← unpackU8_eq, ← unpackU8_eq] at hlen
    exact endWith_eq_giving s ((if_neg (Nat.not_lt.2 h)).trans
      ((if_neg (not_or.2 ⟨Nat.not_lt.2 hcapM, Nat.not_lt.2 hcapT⟩)).trans (if_pos hlen)))
  case customRemainder => exact endWith_eq_giving s ((if_neg hw0).trans (if_pos hrem))
  case customCapacity =>
    exact endWith_eq_giving s ((if_neg hw0).trans ((if_neg (not_not_intro hrem)).trans (if_pos hcap)))
  case noGetBit =>
    refine endWith_eq_giving s ((if_pos hw0).trans ?_)
    simp only [List.length_eq_zero_iff]

end Sys2Proof.Machine
end

section
/-! PROOF. The control operations of the host, and the refusals of operands outside the ranges of their rules
(10 R31, 40 R114, 43 R175, 70 R270). -/

namespace Sys2Proof.Machine

/-! ### Outside the domain of an operation (43 R175) -/

theorem whenDefined_of_eq_false {ok : Bool} (o : Out) (h : ok = false) :
    whenDefined ok o = .refused .outsideDomain := by
  rw [h, whenDefined_false]

theorem not_inRange16_unsigned_iff {v : Int} : ¬ inRange16 .unsigned v = true ↔ v < 0 ∨ 65535 < v := by
  rw [inRange16_unsigned_iff]
  omega

theorem not_inRange16_signed_iff {v : Int} : ¬ inRange16 .signed v = true ↔ v < -32768 ∨ 32767 < v := by
  rw [inRange16_signed_iff]
  omega

theorem inSetRange_eq_false {opc : BitVec 7} (h : opc.toNat < 0x40 ∨ 0x65 < opc.toNat ∨ opc = 0x5F) :
    inSetRange opc = false := by
  rw [Bool.eq_false_iff, Ne, inSetRange_iff]
  rintro ⟨h40, h65, hc⟩
  obtain h | h | h := h
  · omega
  · omega
  · exact hc h

/-- A code of the GET or the SET range, the custom code included, is not unassigned (30 R81). -/
theorem not_unassigned {opc : BitVec 7} (h : opc.toNat ≤ 0x25 ∨ 0x40 ≤ opc.toNat ∧ opc.toNat ≤ 0x65) :
    (!inGetRange opc && !inSetRange opc && decide (opc ≠ customOp)) = false := by
  obtain hget | ⟨h40, h65⟩ := h
  · rw [inGetRange_iff.2 hget]
    rfl
  · by_cases hc : opc = customOp
    · simp [hc]
    · simp [inSetRange_iff.2 ⟨h40, h65, hc⟩]

/-! ### The statements -/

/-- Settles O25: DEC_RESET is the decoder's partial reset (40 R114). -/
theorem decResetRestoresPhaseAndReady : Obligations.DecResetRestoresPhaseAndReady := fun _ => rfl

/-- Settles O34: SET_TIMEOUT is one register's update (10 R31). -/
theorem setTimeoutWritesTheTimeoutAlone : Obligations.SetTimeoutWritesTheTimeoutAlone := fun _ _ => rfl

/-- Settles O35: RESET is the construction of the context, field by field (70 R270). -/
theorem resetConstructsTheContext : Obligations.ResetConstructsTheContext :=
  fun _ _ => ⟨_, rfl, rfl, rfl, rfl, rfl, rfl, rfl, rfl, rfl, rfl, rfl, rfl, rfl⟩

/-- Settles O36: the fields of the reset state (10 R37, R39). -/
theorem resetStateHoldsTheStatedValues : Obligations.ResetStateHoldsTheStatedValues := ⟨rfl, rfl, rfl, rfl, rfl⟩

/-- Settles O47: each operation tests its operands first, and each of these operands fails the test. -/
theorem operandsOutsideTheirDomainAreRefused : Obligations.OperandsOutsideTheirDomainAreRefused := by
  intro s
  refine ⟨fun v hv => ?packS16, fun bs a => ⟨fun h => ?unpackU8, fun h => ⟨?unpackU16, ?unpackS16⟩,
    fun h => ?unpackF32⟩, fun d src c p h => ?encode, fun d src c p k h => ?frame, fun motors => ⟨?allUnsigned, ?allSigned⟩,
    fun mask n speed position angle => ?custom, fun target c req cap rsp h => ?opIllFormed,
    fun target c cap rsp req h => ?opErrFlag, fun op => ⟨fun h => ?get, fun h => ?set, fun h => ?unassigned⟩⟩
  case packS16 => exact whenDefined_of_eq_false _ (Bool.eq_false_iff.2 (not_inRange16_signed_iff.2 hv))
  case unpackU8 => exact whenDefined_of_eq_false _ (decide_eq_false (Nat.not_lt.2 h))
  case unpackU16 | unpackS16 | unpackF32 => exact whenDefined_of_eq_false _ (decide_eq_false (Nat.not_le.2 h))
  case encode | frame => exact whenDefined_of_eq_false _ (decide_eq_false (Nat.not_le.2 h))
  case allUnsigned =>
    rintro ⟨m, hm, hv⟩
    exact whenDefined_of_eq_false _ (List.all_eq_false.2 ⟨m, hm, not_inRange16_unsigned_iff.2 hv⟩)
  case allSigned =>
    rintro ⟨m, hm, hv⟩
    exact whenDefined_of_eq_false _ (List.all_eq_false.2 ⟨m, hm, not_inRange16_signed_iff.2 hv⟩)
  case custom =>
    intro fit
    have hfit : customArraysFit mask n speed position angle = true ↔ fit := customArraysFit_iff
    refine ⟨fun h => if_neg (mt hfit.1 h), fun h => ?_⟩
    rintro ⟨v, hv, hrange⟩
    exact (if_pos (hfit.2 h)).trans
      (whenDefined_of_eq_false _ (List.all_eq_false.2 ⟨v, hv, not_inRange16_signed_iff.2 hrange⟩))
  case opIllFormed => exact whenDefined_of_eq_false _ (Bool.eq_false_iff.2 h)
  case opErrFlag =>
    exact whenDefined_of_eq_false _ (Bool.and_eq_false_iff.2 (.inr (layoutsAllowed_of_errFlag h req rsp)))
  case get => exact whenDefined_of_eq_false _ (inGetRange_eq_false_iff.2 h)
  case set => exact whenDefined_of_eq_false _ (inSetRange_eq_false h)
  case unassigned => exact whenDefined_of_eq_false _ (not_unassigned h)

end Sys2Proof.Machine
end
